-- ==== Sys2Proof/Config.lean ====
section
/-! DEFINITION. The build-time parameters of 00_scope.md R5 and the free values of 00_scope.md R10. The types, formulas and
bounds of the model take the parameters from here. -/

namespace Sys2Proof.Config

/-- `L`, the number of layers (00_scope.md R5; 90_conflicts.md C5). -/
abbrev layers : Nat := 3
/-- `S`, the states of a layer (00_scope.md R5). -/
abbrev states : Nat := 32
/-- `NSYM`, the input symbols (00_scope.md R5). -/
abbrev symbols : Nat := 256
/-- `MAX_LEN`, the longest plaintext or ciphertext of the consumers (00_scope.md R5). -/
abbrev maxLen : Nat := 1024
/-- `KEY_MAX`, the longest key of the upstream hash (00_scope.md R5). -/
abbrev keyMax : Nat := 1024
/-- `SYNTH_KEY_LEN`, the length of a synthesised key (00_scope.md R5). -/
abbrev synthKeyLen : Nat := 16

/-- `DIGEST_W`, the width of a digest (00_scope.md R5). -/
abbrev digestW : Nat := 32
/-- `STATE_W`, the bits of a state number, ceil(log2 S) (00_scope.md R5). -/
abbrev stateW : Nat := 5
/-- `OUT_W`, the bits of an output byte (00_scope.md R5). -/
abbrev outW : Nat := 8
/-- `CMD_W`, the width of a command word (00_scope.md R5). -/
abbrev cmdW : Nat := 32

/-- The internal steps that write one row: its output byte and an entry for each symbol (42_generate.md R144). -/
abbrev rowSteps : Nat := symbols + 1
/-- The internal steps before the first that writes an initial state: those of all rows (42_generate.md R144). -/
abbrev allRowSteps : Nat := layers * states * rowSteps
/-- The internal steps of a GEN: "There are 3 × 32 × 257 + 3 = 24675 steps" (10_state.md R30). -/
abbrev genSteps : Nat := allRowSteps + layers

/-- `GEN_LATENCY`, OPEN (00_scope.md R5, 70_reset_and_hazards.md R240): a number of cycles nothing is known of. -/
opaque genLatency : Nat
/-- `CMD_LATENCY`, OPEN (00_scope.md R5, 70_reset_and_hazards.md R240). -/
opaque cmdLatency : Nat
/-- `AG_BASE`, OPEN (20_memory.md R58). Nothing depends on it. -/
opaque agBase : Nat
/-- `CONSUMER_REJECT`, OPEN (45_consumers.md R194): the signal a consumer rejects an over-long string with. -/
opaque consumerReject : Nat

/-- Free value of a transition read that has no value (00_scope.md R10, 44_table_reads.md R175, R176):
step number, number of the observation in that step, address. -/
opaque freeTrans : Nat → Nat → BitVec 15 → BitVec (delta% stateW)
/-- Free value of an output read that has no value (00_scope.md R10). -/
opaque freeOut : Nat → Nat → BitVec 7 → BitVec (delta% outW)
/-- Free value of an initial-state read that has no value (00_scope.md R10). -/
opaque freeInit : Nat → Nat → BitVec 2 → BitVec (delta% stateW)

end Sys2Proof.Config
end

