-- ==== Sys2Proof/Word.lean ====
section
/-! DEFINITION. The word types of automaton_generator (AG): spec 00_scope.md R7, R8 (unsigned, bit 0 least significant). The
widths that 00_scope.md R5 names are the parameters of Config, written out as numerals by `delta%`. -/

namespace Sys2Proof

/-- A command word, `CMD_W` bits (00_scope.md R5), and every other word of the command interface: response data and STATUS
(10_state.md R23, R36), which are 32 bits as well. -/
abbrev Word := BitVec (delta% Config.cmdW)

/-- A digest, `DIGEST_W` bits (00_scope.md R5). -/
abbrev Digest := BitVec (delta% Config.digestW)

/-- A half word: the IMM16 field (30_encoding.md R73). -/
abbrev Half := BitVec 16

/-- A byte: a symbol, a byte of a key or a string, an error code (00_scope.md R7, 10_state.md R25). -/
abbrev Byte := BitVec 8

/-- An output byte, `OUT_W` bits (00_scope.md R5). -/
abbrev OutByte := BitVec (delta% Config.outW)

/-- A state number, `STATE_W` bits (00_scope.md R5). -/
abbrev StateNo := BitVec (delta% Config.stateW)

/-- A LAYER field, 2 bits: 0, 1 and 2 are layers, 3 names none (30_encoding.md R74; 00_scope.md R5). -/
abbrev LayerNo := BitVec 2

/-- The layer number that names no layer: the value `L` of the field (30_encoding.md R74; 00_scope.md R5). -/
def noLayer : LayerNo := BitVec.ofNat 2 Config.layers

end Sys2Proof
end

