-- ==== Sys2Proof/Syntax.lean ====
section
/-! DEFINITION. The commands of AG (30_encoding.md R75) and the lines of its assembler (R79, R80). -/

namespace Sys2Proof

/-- A command: one constructor per row of the opcode map, 30_encoding.md R75. Every field has exactly the
width the encoding gives it (R73), so each value of each field is encodable. -/
inductive Instr where
  /-- R150: no operation. -/
  | nop
  /-- R151: load the low half of DIGEST. -/
  | ldlo (imm : Half)
  /-- R152: load the high half of DIGEST. -/
  | ldhi (imm : Half)
  /-- R130: generate the automaton from DIGEST. -/
  | gen
  /-- R170: read one transition entry. LAYER 3 is encodable and raises LAYER_RANGE (R74). -/
  | rdtr (layer : LayerNo) (state : StateNo) (sym : Byte)
  /-- R171: read one output byte. -/
  | rdout (layer : LayerNo) (state : StateNo)
  /-- R172: read one initial state. -/
  | rdinit (layer : LayerNo)
  /-- R153: read STATUS. -/
  | rdstat
  /-- R154: read DIGEST. -/
  | rddig
  /-- R155: clear the recorded error. -/
  | clrerr
deriving DecidableEq, Repr

/-- An assembler statement as written: a mnemonic and unsigned numbers of any size (30_encoding.md R79),
with the one pseudo-instruction LDDIG (R80). -/
inductive Source where
  | nop
  | ldlo (imm : Nat)
  | ldhi (imm : Nat)
  | gen
  | rdtr (layer state sym : Nat)
  | rdout (layer state : Nat)
  | rdinit (layer : Nat)
  | rdstat
  | rddig
  | clrerr
  | lddig (imm : Nat)
deriving DecidableEq, Repr

/-- A command as an assembler statement (30_encoding.md R79). -/
def Instr.toSource : Instr → Source
  | .nop => .nop
  | .ldlo i => .ldlo i.toNat
  | .ldhi i => .ldhi i.toNat
  | .gen => .gen
  | .rdtr l s c => .rdtr l.toNat s.toNat c.toNat
  | .rdout l s => .rdout l.toNat s.toNat
  | .rdinit l => .rdinit l.toNat
  | .rdstat => .rdstat
  | .rddig => .rddig
  | .clrerr => .clrerr

end Sys2Proof
end

