-- ==== Sys2Proof/WellFormed.lean ====
section
/-! DEFINITION. Which assembler statements are well formed: every operand fits its field (30_encoding.md R79, R80). -/

namespace Sys2Proof

/-- 30_encoding.md R79: "An assembler refuses an operand that does not fit its field (imm16 > 0xFFFF,
layer > 3, state > 31, sym > 255)"; LDDIG takes a 32-bit number (R80). LAYER 3 fits. -/
def Source.wellFormed : Source → Bool
  | .nop => true
  | .ldlo i => i ≤ 0xFFFF
  | .ldhi i => i ≤ 0xFFFF
  | .gen => true
  | .rdtr l s c => l ≤ 3 && s ≤ 31 && c ≤ 255
  | .rdout l s => l ≤ 3 && s ≤ 31
  | .rdinit l => l ≤ 3
  | .rdstat => true
  | .rddig => true
  | .clrerr => true
  | .lddig i => i ≤ 0xFFFFFFFF

/-- A command is well formed when it can be written as a statement whose operands fit. Every command is:
its fields have the widths of the encoding (`Laws.Instr.wellFormed_eq_true`). -/
def Instr.wellFormed (i : Instr) : Bool := i.toSource.wellFormed

/-- The commands of a well-formed statement (30_encoding.md R79; LDDIG: R80, LDLO first). None where an
operand does not fit. -/
def Source.commands (x : Source) : Option (List Instr) :=
  if x.wellFormed then
    some (match x with
      | .nop => [.nop]
      | .ldlo i => [.ldlo (.ofNat 16 i)]
      | .ldhi i => [.ldhi (.ofNat 16 i)]
      | .gen => [.gen]
      | .rdtr l s c => [.rdtr (.ofNat 2 l) (.ofNat 5 s) (.ofNat 8 c)]
      | .rdout l s => [.rdout (.ofNat 2 l) (.ofNat 5 s)]
      | .rdinit l => [.rdinit (.ofNat 2 l)]
      | .rdstat => [.rdstat]
      | .rddig => [.rddig]
      | .clrerr => [.clrerr]
      | .lddig i => [.ldlo (.ofNat 16 (i % 0x10000)), .ldhi (.ofNat 16 (i / 0x10000))])
  else none

end Sys2Proof
end

