-- ==== Sys2Proof/Decode.lean ====
section
/-! DEFINITION. Decoding of command words and their encoder: 30_encoding.md R70 to R78. -/

namespace Sys2Proof

/-- Why a word is no command: the two decode errors (30_encoding.md R76, R77). -/
inductive DecodeError where
  /-- The opcode is 0xA to 0xF (R76). -/
  | illegalOpcode
  /-- A reserved bit of the opcode's format is set (R77). -/
  | rsvdNonzero
deriving DecidableEq, Repr

/-- OPC = w[31:28] (30_encoding.md R70). -/
def opcField (w : Word) : BitVec 4 := w.extractLsb' 28 4
/-- LAYER = w[27:26] (30_encoding.md R73). -/
def layerField (w : Word) : LayerNo := w.extractLsb' 26 2
/-- STATE = w[25:21] (30_encoding.md R73). -/
def stateField (w : Word) : StateNo := w.extractLsb' 21 5
/-- SYM = w[20:13] (30_encoding.md R73). -/
def symField (w : Word) : Byte := w.extractLsb' 13 8
/-- IMM16 = w[15:0] (30_encoding.md R73). -/
def immField (w : Word) : Half := w.extractLsb' 0 16

/-- RSVD_MASK of 30_encoding.md R78: the reserved bits of an opcode's format. An illegal opcode has none. -/
def rsvdMask (opc : BitVec 4) : Word :=
  match opc.toNat with
  | 0x0 => 0x0FFFFFFF
  | 0x1 => 0x0FFF0000
  | 0x2 => 0x0FFF0000
  | 0x3 => 0x0FFFFFFF
  | 0x4 => 0x00001FFF
  | 0x5 => 0x001FFFFF
  | 0x6 => 0x03FFFFFF
  | 0x7 => 0x0FFFFFFF
  | 0x8 => 0x0FFFFFFF
  | 0x9 => 0x0FFFFFFF
  | _ => 0

/-- The command of an opcode with the word's fields, the opcode map of 30_encoding.md R75. None for 0xA to 0xF (R76). -/
def instrOf (w : Word) : Option Instr :=
  match (opcField w).toNat with
  | 0x0 => some .nop
  | 0x1 => some (.ldlo (immField w))
  | 0x2 => some (.ldhi (immField w))
  | 0x3 => some .gen
  | 0x4 => some (.rdtr (layerField w) (stateField w) (symField w))
  | 0x5 => some (.rdout (layerField w) (stateField w))
  | 0x6 => some (.rdinit (layerField w))
  | 0x7 => some .rdstat
  | 0x8 => some .rddig
  | 0x9 => some .clrerr
  | _ => none

/-- Decoding, total on every word: the first two checks of 30_encoding.md R78 in their order. The other two
(LAYER_RANGE, NOT_VALID) belong to the commands that name a table and are made by their meanings. -/
def decode (w : Word) : Except DecodeError Instr :=
  match instrOf w with
  | none => .error .illegalOpcode
  | some i => if w &&& rsvdMask (opcField w) ≠ 0 then .error .rsvdNonzero else .ok i

/-- Format N: OPC, reserved 27:0 (30_encoding.md R71). -/
def wordN (opc : BitVec 4) : Word := opc ++ (0 : BitVec 28)
/-- Format I: OPC, reserved 27:16, IMM16 (30_encoding.md R71). -/
def wordI (opc : BitVec 4) (imm : Half) : Word := opc ++ (0 : BitVec 12) ++ imm
/-- Format T: OPC, LAYER, STATE, SYM, reserved 12:0 (30_encoding.md R71). -/
def wordT (opc : BitVec 4) (l : LayerNo) (s : StateNo) (c : Byte) : Word := opc ++ l ++ s ++ c ++ (0 : BitVec 13)
/-- Format O: OPC, LAYER, STATE, reserved 20:0 (30_encoding.md R71). -/
def wordO (opc : BitVec 4) (l : LayerNo) (s : StateNo) : Word := opc ++ l ++ s ++ (0 : BitVec 21)
/-- Format Y: OPC, LAYER, reserved 25:0 (30_encoding.md R71). -/
def wordY (opc : BitVec 4) (l : LayerNo) : Word := opc ++ l ++ (0 : BitVec 26)

/-- The word of a command: its opcode and format (30_encoding.md R71, R75), reserved bits 0. -/
def encode : Instr → Word
  | .nop => wordN 0x0
  | .ldlo imm => wordI 0x1 imm
  | .ldhi imm => wordI 0x2 imm
  | .gen => wordN 0x3
  | .rdtr l s c => wordT 0x4 l s c
  | .rdout l s => wordO 0x5 l s
  | .rdinit l => wordY 0x6 l
  | .rdstat => wordN 0x7
  | .rddig => wordN 0x8
  | .clrerr => wordN 0x9

/-- A row of the opcode map (30_encoding.md R75). -/
structure OpRow where
  /-- The bits that must be as `pattern` says; the column `mask`. -/
  mask : Word
  /-- The column `match`. -/
  pattern : Word
deriving DecidableEq, Repr

/-- `w & mask == match` (30_encoding.md R75). -/
def OpRow.selects (r : OpRow) (w : Word) : Bool := w &&& r.mask == r.pattern

/-- The row of a command (30_encoding.md R75). -/
def Instr.row : Instr → OpRow
  | .nop => ⟨0xFFFFFFFF, 0x00000000⟩
  | .ldlo _ => ⟨0xFFFF0000, 0x10000000⟩
  | .ldhi _ => ⟨0xFFFF0000, 0x20000000⟩
  | .gen => ⟨0xFFFFFFFF, 0x30000000⟩
  | .rdtr _ _ _ => ⟨0xF0001FFF, 0x40000000⟩
  | .rdout _ _ => ⟨0xF01FFFFF, 0x50000000⟩
  | .rdinit _ => ⟨0xF3FFFFFF, 0x60000000⟩
  | .rdstat => ⟨0xFFFFFFFF, 0x70000000⟩
  | .rddig => ⟨0xFFFFFFFF, 0x80000000⟩
  | .clrerr => ⟨0xFFFFFFFF, 0x90000000⟩

/-- The ten rows of the opcode map, in its order (30_encoding.md R75). -/
def opcodeMap : List OpRow :=
  [Instr.row .nop, Instr.row (.ldlo 0), Instr.row (.ldhi 0), Instr.row .gen, Instr.row (.rdtr 0 0 0),
    Instr.row (.rdout 0 0), Instr.row (.rdinit 0), Instr.row .rdstat, Instr.row .rddig, Instr.row .clrerr]

/-- The instruction the decoder reads from a table word. AG's words have 32 bits and one length
(30_encoding.md R70); bits from `nbits` on are 0. -/
def decodeTableWord (nbits w : Nat) : Option Instr :=
  match decode (BitVec.ofNat 32 (w % 2 ^ nbits)) with
  | .ok i => some i
  | .error _ => none

end Sys2Proof
end

