-- ==== Sys2Proof/Machine/State.lean ====
section
/-! DEFINITION. The state of AG (10_state.md R20 to R34), with the inputs of the outside world as plain data, and reset (R34). -/

namespace Sys2Proof.Machine

/-- A response: (`rsp_err`, `rsp_data`) (30_encoding.md R72, 10_state.md R36). -/
structure Response where
  /-- `rsp_err`. -/
  err : Bool
  /-- `rsp_data[31:0]`. -/
  data : Word
deriving DecidableEq, Repr

/-- `PHASE` (10_state.md R32). Each phase carries what exists only in it. -/
inductive Phase where
  /-- IDLE: ready to accept a command. -/
  | idle
  /-- BUSY: executing an accepted command, whose word AG holds (R32, R35; DEDUCED, log entry 5). -/
  | busy (w : Word)
  /-- GENERATING: a GEN between its phases. `k` is `GSEQ`, the next internal step (10_state.md R30). -/
  | generating (k : BitVec 15)
  /-- RESPOND: holding a response not yet taken (R36). -/
  | respond (r : Response)
deriving DecidableEq, Repr

/-- The levels that the outside world puts on AG's inputs at one step (log entry 1). The default values are the plain case:
no reset, the master presents its next word and takes a response at once. -/
structure Inputs where
  /-- The reset input `rst` (10_state.md R38). -/
  rst : Bool := false
  /-- The master presents its next word now; with a word left, this is `cmd_valid` (10_state.md R35). -/
  cmdValid : Bool := true
  /-- `rsp_ready` (10_state.md R36). -/
  rspReady : Bool := true
deriving DecidableEq, Repr

/-- The inputs at one step, and how far AG's own timing gets in it (log entry 1). By default AG finishes what it is doing. -/
structure Tick extends Inputs where
  /-- A command other than GEN reaches its response in this step; otherwise it stays BUSY (R32). Stands for
  `CMD_LATENCY`, which is OPEN (70_reset_and_hazards.md R240). A GEN does not wait for it (42_generate.md R132). -/
  cmdDone : Bool := true
  /-- How many internal steps a GEN makes in this step; at least one is made (R241). Stands for
  `GEN_LATENCY`, which is OPEN. -/
  seqSteps : Nat := Config.genSteps
deriving DecidableEq, Repr

/-- The state of AG, and below it the model's own fields. The table files TRANS, OUT and INIT (R26 to R28)
are represented by `gd` when `valid` holds, as R29 allows, and by `digest` and `GSEQ` during a GEN: see
`State.tableSeed` (log entry 2). -/
structure State where
  /-- `DIGEST` (R21). -/
  digest : Digest
  /-- `STATUS.VALID` (R24). -/
  valid : Bool
  /-- `STATUS.ECODE` (R25). -/
  ecode : Byte
  /-- The hidden `GD`: the digest the last completed GEN read (R29). -/
  gd : Option Digest
  /-- `PHASE`, with `GSEQ` and the pending response in it (R32, R30, R36). -/
  phase : Phase
  /-- Model's own: the command master's words not yet accepted, oldest first (R35). -/
  cmds : List Word
  /-- Model's own: the coming ticks, the next one first. -/
  sched : List Tick
  /-- Model's own: the inputs at every step after the last scheduled tick, for good. AG's own timing then is the default one, so
  that every command it accepts ends (70_reset_and_hazards.md R239, R241). -/
  rest : Inputs
  /-- Model's own: the responses the master has taken, oldest first (R36). -/
  taken : List Response
  /-- Model's own: steps made, the index of the free values (00_scope.md R10). -/
  draw : Nat
deriving DecidableEq, Repr

/-- AG has no fault: "AG has no trap, exception vector or handler" (60_exceptions.md R200). No constructor. -/
inductive Fault where
deriving DecidableEq, Repr

/-- Why a step would have no meaning. No meaning of this model raises one. -/
inductive Refusal where
  /-- An instruction without a meaning, raised by an arm of `exec` only; no arm does. Safe. -/
  | notModelled (mnemonic : String)
deriving DecidableEq, Repr

/-- A step's outcome. -/
abbrev Result := Host.Outcome State Fault Refusal

/-- The state after reset (10_state.md R34), with no word presented, no tick scheduled, no response taken. -/
def State.reset : State where
  digest := 0x00000000
  valid := false
  ecode := 0x00
  gd := none
  phase := .idle
  cmds := []
  sched := []
  rest := {}
  taken := []
  draw := 0

end Sys2Proof.Machine
end

