-- ==== Sys2Proof/Machine/Flags.lean ====
section
/-! DEFINITION. STATUS and its flags: 10_state.md R23 to R25, R33. AG has no other flag. -/

namespace Sys2Proof.Machine

/-- `STATUS.ERR`: "`ECODE != 0`; computed, not stored" (10_state.md R23). -/
def errFlag (s : State) : Bool := s.ecode ≠ 0

/-- The STATUS word `zext_32({ECODE, 6'b0, (ECODE != 0), VALID})` (10_state.md R23, 43_register_commands.md R153). -/
def statusWord (s : State) : Word :=
  (s.ecode ++ (0 : BitVec 6) ++ BitVec.ofBool (errFlag s) ++ BitVec.ofBool s.valid).setWidth 32

end Sys2Proof.Machine
end

