-- ==== Sys2Proof/Machine/Operands.lean ====
section
/-! DEFINITION. Operand assembly: how IMM16 enters DIGEST and how results are widened (30_encoding.md R72, R73). -/

namespace Sys2Proof.Machine

/-- `{DIGEST[31:16], IMM16}` (43_register_commands.md R151). -/
def withLowHalf (d : Digest) (imm : Half) : Digest := d.extractLsb' 16 16 ++ imm

/-- `{IMM16, DIGEST[15:0]}` (43_register_commands.md R152). -/
def withHighHalf (d : Digest) (imm : Half) : Digest := imm ++ d.extractLsb' 0 16

/-- `zext_32` of a state number (30_encoding.md R72, 44_table_reads.md R170, R172). -/
def zextState (v : StateNo) : Word := v.setWidth 32

/-- `zext_32` of a byte (30_encoding.md R72, 44_table_reads.md R171, 60_exceptions.md R203). -/
def zextByte (v : Byte) : Word := v.setWidth 32

end Sys2Proof.Machine
end

