-- ==== Sys2Proof/Machine/Mixing.lean ====
section
/-! DEFINITION. The mixing functions of AG's generation datapath: 40_mixing.md R100 to R108. -/

namespace Sys2Proof.Machine

/-- 40_mixing.md R101: 8-bit rotate left, the amount taken mod 8. -/
def rotl8 (b : Byte) (n : Nat) : Byte :=
  let m := n % 8
  (b <<< m) ||| (b >>> ((8 - m) % 8))

/-- 40_mixing.md R102: 32-bit rotate left, the amount taken mod 32. -/
def rotl32 (w : Word) (n : Nat) : Word :=
  let m := n % 32
  (w <<< m) ||| (w >>> ((32 - m) % 32))

/-- 40_mixing.md R103: the nonlinear byte substitution. -/
def sbox (b : Byte) : Byte := rotl8 (b * 0xA7 + 0x3B) 3 ^^^ 0x5C

/-- 40_mixing.md R104: the inverse of `sbox`. AG never uses it. -/
def sboxInv (y : Byte) : Byte := (rotl8 (y ^^^ 0x5C) 5 - 0x3B) * 0x17

/-- Bit `i` of `b` as a byte of value 0 or 1. -/
def bitAt (b : Byte) (i : Nat) : Byte := (b >>> i) &&& 1

/-- 40_mixing.md R105: output bit `i` is input bit `(5*i + 3) mod 8`. -/
def scramble (b : Byte) : Byte :=
  (List.range 8).foldl (fun acc i => acc ||| (bitAt b ((5 * i + 3) % 8) <<< i)) 0

/-- 40_mixing.md R106: output bit `j` is input bit `(5*j + 1) mod 8`. AG never uses it. -/
def scrambleInv (y : Byte) : Byte :=
  (List.range 8).foldl (fun acc j => acc ||| (bitAt y ((5 * j + 1) % 8) <<< j)) 0

/-- 40_mixing.md R107: word-obfuscate. -/
def wo (w : Word) : Word :=
  let t1 := w ^^^ 0x9E3779B9
  let t2 := (w &&& 0x7F4A7C15) <<< 1
  (t1 + t2) ^^^ rotl32 w 13

/-- The mixing functions as a parameter (93_implementation_defined.md U4, U5: "configuration functions"):
generation and the key hash are written over them. `rotl32` stands only inside `wo` (40_mixing.md R108). -/
structure Mixing where
  rotl8 : Byte → Nat → Byte
  sbox : Byte → Byte
  scramble : Byte → Byte
  wo : Word → Word

/-- The spec's mixing functions, 40_mixing.md R101 to R107. AG uses these. -/
def specMixing : Mixing := ⟨Machine.rotl8, Machine.sbox, Machine.scramble, Machine.wo⟩

end Sys2Proof.Machine
end

