-- ==== Sys2Proof/Machine/Generation.lean ====
section
/-! DEFINITION. The generation function and the order of its internal steps: 42_generate.md R131 to R138, R144. -/

namespace Sys2Proof.Machine

/-- `(l + 1) *32 0x85EBCA6B` (42_generate.md R133, R138). -/
def layerConst (l : LayerNo) : Word := (l.setWidth 32 + 1) * 0x85EBCA6B

/-- 42_generate.md R133: the layer seed. -/
def layerSeed (m : Mixing) (d : Digest) (l : LayerNo) : Word := m.wo (d ^^^ layerConst l)

/-- `(s + 1) *32 0x27D4EB2F` (42_generate.md R134). -/
def rowConst (s : StateNo) : Word := (s.setWidth 32 + 1) * 0x27D4EB2F

/-- 42_generate.md R134: the row seed. -/
def rowSeed (m : Mixing) (d : Digest) (l : LayerNo) (s : StateNo) : Word := m.wo (layerSeed m d l ^^^ rowConst s)

/-- `k1 = rs[7:0]` (42_generate.md R134). -/
def rowK1 (rs : Word) : Byte := rs.extractLsb' 0 8
/-- `k2 = rs[15:8]` (42_generate.md R134). -/
def rowK2 (rs : Word) : Byte := rs.extractLsb' 8 8
/-- `k3 = rs[23:16]` (42_generate.md R134). -/
def rowK3 (rs : Word) : Byte := rs.extractLsb' 16 8
/-- `r = rs[26:24]`, a rotate amount 0 to 7 (42_generate.md R134). -/
def rowRot (rs : Word) : BitVec 3 := rs.extractLsb' 24 3
/-- `ko = rs[31:24]` (42_generate.md R134). -/
def rowKo (rs : Word) : Byte := rs.extractLsb' 24 8

/-- 42_generate.md R135: the row permutation `P(rs, c)`. -/
def rowPerm (m : Mixing) (rs : Word) (c : Byte) : Byte :=
  m.scramble (m.sbox (m.rotl8 (c ^^^ rowK1 rs) (rowRot rs).toNat + rowK2 rs)) ^^^ rowK3 rs

/-- 42_generate.md R136: the transition entry `T[l][s][c]`. -/
def transEntry (m : Mixing) (d : Digest) (l : LayerNo) (s : StateNo) (c : Byte) : StateNo :=
  (rowPerm m (rowSeed m d l s) c).extractLsb' 0 _

/-- 42_generate.md R137: the output entry `O[l][s]`. -/
def outEntry (m : Mixing) (d : Digest) (l : LayerNo) (s : StateNo) : OutByte :=
  m.sbox (m.scramble (rowKo (rowSeed m d l s)) ^^^ s.setWidth 8)

/-- 42_generate.md R138: the initial state `I[l]`. -/
def initEntry (m : Mixing) (d : Digest) (l : LayerNo) : StateNo :=
  (m.wo (d ^^^ 0xC2B2AE35 ^^^ layerConst l)).extractLsb' 0 _

/-- The name of one table entry (20_memory.md R50). Layer field 3 names none (R54). -/
inductive Entry where
  | trans (l : LayerNo) (s : StateNo) (c : Byte)
  | out (l : LayerNo) (s : StateNo)
  | init (l : LayerNo)
deriving DecidableEq, Repr

/-- The layer field of an entry's name. -/
def Entry.layer : Entry → LayerNo
  | .trans l _ _ => l
  | .out l _ => l
  | .init l => l

/-- The entry exists: its layer is 0, 1 or 2 (20_memory.md R50, R54). -/
def Entry.populated (e : Entry) : Bool := e.layer ≠ noLayer

/-- The generated value of an entry, zero-extended to a byte (42_generate.md R131). -/
def entryValue (m : Mixing) (d : Digest) : Entry → Byte
  | .trans l s c => (transEntry m d l s c).setWidth 8
  | .out l s => outEntry m d l s
  | .init l => (initEntry m d l).setWidth 8

/-- `base = (l * 32 + s) * 257`, 32 being `S` and 257 `NSYM` + 1 (42_generate.md R144). -/
def rowBase (l : LayerNo) (s : StateNo) : Nat := (l.toNat * Config.states + s.toNat) * Config.rowSteps

/-- The internal step that writes an entry (42_generate.md R144). -/
def Entry.stepNo : Entry → Nat
  | .trans l s c => rowBase l s + 1 + c.toNat
  | .out l s => rowBase l s
  | .init l => Config.allRowSteps + l.toNat

/-- `entry(k)`: the entry that internal step `k` writes, for k = 0 to 24674 (42_generate.md R144). -/
def entryAt (k : Nat) : Option Entry :=
  if k < Config.allRowSteps then
    let row := k / Config.rowSteps
    let l := BitVec.ofNat 2 (row / Config.states)
    let s := BitVec.ofNat _ (row % Config.states)
    some (if k % Config.rowSteps = 0 then .out l s else .trans l s (BitVec.ofNat 8 (k % Config.rowSteps - 1)))
  else if k < Config.genSteps then some (.init (BitVec.ofNat 2 (k - Config.allRowSteps)))
  else none

end Sys2Proof.Machine
end

