-- ==== Sys2Proof/Machine/Tables.lean ====
section
/-! DEFINITION. The table files TRANS, OUT and INIT as views of State: 10_state.md R26 to R29, 20_memory.md R50, R51. -/

namespace Sys2Proof.Machine

/-- `GSEQ`: the position, or none when idle (10_state.md R30). -/
def State.gseq (s : State) : Option (BitVec 15) :=
  match s.phase with
  | .generating k => some k
  | _ => none

/-- The digest from which the entry of internal step `n` holds its value, or none where the entry holds no
value. With VALID = 1 it is GD for every entry (10_state.md R29). During a GEN the entries of the steps
before GSEQ have been written from DIGEST (42_generate.md R130). Else none has a value (R34, R130). -/
def State.tableSeed (s : State) (n : Nat) : Option Digest :=
  if s.valid then s.gd
  else match s.phase with
    | .generating k => if n < k.toNat then some s.digest else none
    | _ => none

/-- `TRANS[l][s][c]`, or none where the entry holds no value or does not exist (10_state.md R26). -/
def State.trans (s : State) (l : LayerNo) (st : StateNo) (c : Byte) : Option StateNo :=
  if l = noLayer then none
  else (s.tableSeed (Entry.trans l st c).stepNo).map fun d => transEntry specMixing d l st c

/-- `OUT[l][s]` (10_state.md R27). -/
def State.out (s : State) (l : LayerNo) (st : StateNo) : Option Byte :=
  if l = noLayer then none
  else (s.tableSeed (Entry.out l st).stepNo).map fun d => outEntry specMixing d l st

/-- `INIT[l]` (10_state.md R28). -/
def State.init (s : State) (l : LayerNo) : Option StateNo :=
  if l = noLayer then none
  else (s.tableSeed (Entry.init l).stepNo).map fun d => initEntry specMixing d l

/-- The content of any entry by its name, zero-extended to a byte. -/
def State.entry (s : State) : Entry → Option Byte
  | .trans l st c => (s.trans l st c).map (BitVec.setWidth 8)
  | .out l st => s.out l st
  | .init l => (s.init l).map (BitVec.setWidth 8)

/-- The TRANS index `{l, s, c}` (20_memory.md R50). -/
def transIndex (l : LayerNo) (s : StateNo) (c : Byte) : BitVec 15 := l ++ s ++ c
/-- The OUT index `{l, s}` (20_memory.md R50). -/
def outIndex (l : LayerNo) (s : StateNo) : BitVec 7 := l ++ s

/-- `MemRead(TRANS, idx, 1)` (20_memory.md R51). -/
def State.memReadTrans (s : State) (idx : BitVec 15) : Option StateNo :=
  s.trans (idx.extractLsb' 13 2) (idx.extractLsb' 8 5) (idx.extractLsb' 0 8)
/-- `MemRead(OUT, idx, 1)` (20_memory.md R51). -/
def State.memReadOut (s : State) (idx : BitVec 7) : Option Byte :=
  s.out (idx.extractLsb' 5 2) (idx.extractLsb' 0 5)
/-- A read of INIT by its index (20_memory.md R50). -/
def State.memReadInit (s : State) (idx : BitVec 2) : Option StateNo := s.init idx

end Sys2Proof.Machine
end

