-- ==== Sys2Proof/Machine/Ops.lean ====
section
/-! DEFINITION. The shared operations: responding, ending a command in error (60_exceptions.md R200 to R208), the checks of a
table read, and GEN's two phases (42_generate.md R130, R132). -/

namespace Sys2Proof.Machine

/-- `respond(err, data)`: the one response of the current command (00_scope.md R9, 10_state.md R32, R36). -/
def State.respond (s : State) (err : Bool) (data : Word) : State := { s with phase := .respond ⟨err, data⟩ }

/-- A successful end with result `data` (30_encoding.md R72). -/
def State.succeed (s : State) (data : Word) : State := s.respond false data

/-- The error codes, the complete set (60_exceptions.md R201). -/
inductive ErrorCode where
  | illegalOpcode
  | rsvdNonzero
  | layerRange
  | notValid
deriving DecidableEq, Repr

/-- The value of an error code (60_exceptions.md R201). -/
def ErrorCode.code : ErrorCode → Byte
  | .illegalOpcode => 0x01
  | .rsvdNonzero => 0x02
  | .layerRange => 0x03
  | .notValid => 0x04

/-- The error code of a decode error (30_encoding.md R78). -/
def errorOfDecode : DecodeError → ErrorCode
  | .illegalOpcode => .illegalOpcode
  | .rsvdNonzero => .rsvdNonzero

/-- 60_exceptions.md R204: ECODE keeps the first error since the last clear. -/
def recordedCode (old : Byte) (e : ErrorCode) : Byte := if old = 0 then e.code else old

/-- `raise Error(code)`: AG's one way to end a command in error. ECODE records the first error (60_exceptions.md
R204), the response carries the code (R203), nothing else changes (R205). There is no trap entry and so no
return from one (R207, R208): CLRERR clears the record. -/
def State.raiseError (s : State) (e : ErrorCode) : State :=
  { s with ecode := recordedCode s.ecode e }.respond true (zextByte e.code)

/-- The checks a table-reading command makes after decoding: LAYER_RANGE, then NOT_VALID (30_encoding.md R78,
60_exceptions.md R206); then it responds with the entry it reads. -/
def tableRead (l : LayerNo) (read : State → Word) (s : State) : Result :=
  if l = noLayer then .next (s.raiseError .layerRange)
  else if s.valid = false then .next (s.raiseError .notValid)
  else .next (s.succeed (read s))

/-- The transition entry a command reads. An entry without value cannot arise here in a state a run reaches
(00_scope.md R10; `State.Inv`); if it does, the value is free (log entry 4). -/
def State.readTrans (s : State) (l : LayerNo) (st : StateNo) (c : Byte) : StateNo :=
  (s.trans l st c).getD (Config.freeTrans s.draw 0 (transIndex l st c))

/-- The output byte a command reads; free where it has no value (00_scope.md R10, log entry 4). -/
def State.readOut (s : State) (l : LayerNo) (st : StateNo) : Byte :=
  (s.out l st).getD (Config.freeOut s.draw 0 (outIndex l st))

/-- The initial state a command reads; free where it has no value (00_scope.md R10, log entry 4). -/
def State.readInit (s : State) (l : LayerNo) : StateNo :=
  (s.init l).getD (Config.freeInit s.draw 0 l)

/-- Phase 1 of a GEN: VALID becomes 0, every entry loses its value, GSEQ starts at 0 (42_generate.md R130, R132). -/
def State.startGen (s : State) : State := { s with valid := false, phase := .generating 0 }

/-- Phase 2 of a GEN: GD is the digest read, VALID becomes 1, GSEQ is idle, and GEN responds (42_generate.md R130).
DIGEST cannot have changed since phase 1: no command is accepted during a GEN (70_reset_and_hazards.md R238; log entry 7). -/
def State.finishGen (s : State) : State := { s with gd := some s.digest, valid := true }.succeed 0

/-- The sequencer at step `k` makes `n` internal steps, at least one; the GEN completes after step 24674
(10_state.md R30, 42_generate.md R144, 70_reset_and_hazards.md R241; log entry 6). -/
def State.advanceGen (s : State) (k : BitVec 15) (n : Nat) : State :=
  let k' := k.toNat + max 1 n
  if k' < Config.genSteps then { s with phase := .generating (BitVec.ofNat 15 k') } else s.finishGen

/-- Reset (70_reset_and_hazards.md R230): AG takes its reset state whatever it was doing. The outside world's lists
and the draws are not AG's and stay. -/
def State.resetCore (s : State) : State :=
  { State.reset with cmds := s.cmds, sched := s.sched, rest := s.rest, taken := s.taken, draw := s.draw }

/-- The transfer of a response: the master takes it and PHASE returns to IDLE (10_state.md R36). -/
def State.transfer (s : State) (r : Response) : State := { s with phase := .idle, taken := s.taken ++ [r] }

end Sys2Proof.Machine
end

