-- ==== Sys2Proof/Machine/Generate.lean ====
section
/-! DEFINITION. The GEN command: 42_generate.md R130. Its phase 2 is `State.finishGen`, reached by `State.advanceGen`. -/

namespace Sys2Proof.Machine

/-- R130, GEN: phase 1. Generation itself follows in the GENERATING phase, and the response with it (R132). -/
def execGen (s : State) : Result := .next s.startGen

end Sys2Proof.Machine
end

