-- ==== Sys2Proof/Machine/Registers.lean ====
section
/-! DEFINITION. The register and control commands: 43_register_commands.md R150 to R155. -/

namespace Sys2Proof.Machine

/-- R150, NOP: it changes no state and responds 0. -/
def execNop (s : State) : Result := .next (s.succeed 0)

/-- R151, LDLO: `DIGEST <- {DIGEST[31:16], IMM16}`. -/
def execLdlo (imm : Half) (s : State) : Result :=
  .next ({ s with digest := withLowHalf s.digest imm }.succeed 0)

/-- R152, LDHI: `DIGEST <- {IMM16, DIGEST[15:0]}`. -/
def execLdhi (imm : Half) (s : State) : Result :=
  .next ({ s with digest := withHighHalf s.digest imm }.succeed 0)

/-- R153, RDSTAT: responds STATUS. -/
def execRdstat (s : State) : Result := .next (s.succeed (statusWord s))

/-- R154, RDDIG: responds DIGEST, not GD. -/
def execRddig (s : State) : Result := .next (s.succeed s.digest)

/-- R155, CLRERR: `ECODE <- 0x00`. -/
def execClrerr (s : State) : Result := .next ({ s with ecode := 0 }.succeed 0)

end Sys2Proof.Machine
end

