-- ==== Sys2Proof/Machine/TableReads.lean ====
section
/-! DEFINITION. The table-reading commands: 44_table_reads.md R170 to R172. -/

namespace Sys2Proof.Machine

/-- R170, RDTR: responds `zext_32(TRANS[l][s][c])`. -/
def execRdtr (l : LayerNo) (st : StateNo) (c : Byte) (s : State) : Result :=
  tableRead l (fun s => zextState (s.readTrans l st c)) s

/-- R171, RDOUT: responds `zext_32(OUT[l][s])`. -/
def execRdout (l : LayerNo) (st : StateNo) (s : State) : Result :=
  tableRead l (fun s => zextByte (s.readOut l st)) s

/-- R172, RDINIT: responds `zext_32(INIT[l])`. -/
def execRdinit (l : LayerNo) (s : State) : Result :=
  tableRead l (fun s => zextState (s.readInit l)) s

end Sys2Proof.Machine
end

