-- ==== Sys2Proof/Machine/Dispatch.lean ====
section
/-! DEFINITION. The dispatch of a decoded command to its meaning (30_encoding.md R75, R78). -/

namespace Sys2Proof.Machine

def exec (i : Instr) (s : State) : Host.Outcome State Fault Refusal :=
  match i with
  | .nop => Sys2Proof.Machine.execNop s
  | .ldlo imm => Sys2Proof.Machine.execLdlo imm s
  | .ldhi imm => Sys2Proof.Machine.execLdhi imm s
  | .gen => Sys2Proof.Machine.execGen s
  | .rdtr l st c => Sys2Proof.Machine.execRdtr l st c s
  | .rdout l st => Sys2Proof.Machine.execRdout l st s
  | .rdinit l => Sys2Proof.Machine.execRdinit l s
  | .rdstat => Sys2Proof.Machine.execRdstat s
  | .rddig => Sys2Proof.Machine.execRddig s
  | .clrerr => Sys2Proof.Machine.execClrerr s

end Sys2Proof.Machine
end

