-- ==== Sys2Proof/Machine/Channel.lean ====
section
/-! DEFINITION. The command and response channels, and what AG does in each phase: 10_state.md R32, R35, R36, R38. -/

namespace Sys2Proof.Machine

/-- The tick of the coming step: the first scheduled one, or the inputs after the schedule (log entry 1). -/
def State.tick (s : State) : Tick := s.sched.headD { toInputs := s.rest }

/-- The step's tick is used up and the draws move on. -/
def State.advanceTick (s : State) : State := { s with sched := s.sched.tail, draw := s.draw + 1 }

/-- `cmd_ready`: 1 exactly in IDLE with reset not asserted (10_state.md R35). -/
def State.cmdReady (s : State) : Bool := s.phase = .idle && !s.tick.rst

/-- The response on the channel while `rsp_valid` = 1, none while it is 0 (10_state.md R36; 0 during reset,
70_reset_and_hazards.md R230). No value is given to the response pins while `rsp_valid` = 0 (log entry 11). -/
def State.rspOut (s : State) : Option Response :=
  match s.phase with
  | .respond r => if s.tick.rst then none else some r
  | _ => none

/-- `rsp_valid` (10_state.md R36). -/
def State.rspValid (s : State) : Bool := s.rspOut.isSome
/-- `rsp_err`, where `rsp_valid` = 1 (10_state.md R36). -/
def State.rspErr (s : State) : Option Bool := s.rspOut.map Response.err
/-- `rsp_data`, where `rsp_valid` = 1 (10_state.md R36). -/
def State.rspData (s : State) : Option Word := s.rspOut.map Response.data

/-- Executing an accepted word: the decode checks of 30_encoding.md R78, then the command. -/
def runWord (w : Word) (s : State) : Result :=
  match decode w with
  | .ok i => exec i s
  | .error e => .next (s.raiseError (errorOfDecode e))

/-- The word `cmd_word` that the master presents in this tick, if `cmd_valid` = 1 (10_state.md R35). -/
def presented (t : Tick) (s : State) : Option Word := if t.cmdValid then s.cmds.head? else none

/-- Acceptance of the presented word: AG holds it and is BUSY, for a GEN only until its phase 1 in the same step
(10_state.md R32, R35; log entry 5). -/
def State.accept (s : State) (w : Word) : State := { s with cmds := s.cmds.tail, phase := .busy w }

/-- The word is a GEN that passes decoding (42_generate.md R132). -/
def startsGen (w : Word) : Bool := decode w = .ok .gen

/-- The accepted word `w` is executed in this tick: a GEN at once, "Phase 1 happens when GEN is accepted and passes decoding"
(42_generate.md R132), any other word when the tick says so (70_reset_and_hazards.md R240). -/
def Tick.runs (t : Tick) (w : Word) : Bool := t.cmdDone || startsGen w

/-- An accepted word `w`: it is executed, or AG stays BUSY with it. A GEN never does: BUSY is for every other command
(10_state.md R32, 42_generate.md R132). -/
def busyStep (t : Tick) (w : Word) (s : State) : Result := if t.runs w then runWord w s else .next s

/-- IDLE: accept the presented word, and execute it when it runs; without one nothing happens (10_state.md R32, R35). -/
def idleStep (t : Tick) (s : State) : Result :=
  match presented t s with
  | some w => busyStep t w (s.accept w)
  | none => .next s

/-- RESPOND: the response is transferred when `rsp_ready` = 1, and held steady otherwise (10_state.md R36,
70_reset_and_hazards.md R239). -/
def respondStep (t : Tick) (r : Response) (s : State) : Result :=
  .next (if t.rspReady then s.transfer r else s)

/-- One event of AG under the tick `t`: reset, or what its phase does (10_state.md R32, 70_reset_and_hazards.md R230). -/
def phaseStep (t : Tick) (s : State) : Result :=
  if t.rst then .next s.resetCore
  else match s.phase with
    | .idle => idleStep t s
    | .busy w => busyStep t w s
    | .generating k => .next (s.advanceGen k t.seqSteps)
    | .respond r => respondStep t r s

/-- The state in which the word `w` is the next that AG executes: IDLE, `w` presented, a default tick. -/
def State.placeWord (s : State) (w : Word) : State :=
  { s with phase := .idle, cmds := w :: s.cmds, sched := {} :: s.sched }

end Sys2Proof.Machine
end

