-- ==== Sys2Proof/Machine/Step.lean ====
section
/-! DEFINITION. One step of AG: 00_scope.md R11, 10_state.md R31, R32. -/

namespace Sys2Proof.Machine

/-- One step: one event of AG under its next tick. AG fetches nothing (10_state.md R31): the words come from the
command master. -/
def step (s : State) : Host.Outcome State Fault Refusal := phaseStep s.tick s.advanceTick

/-- `s` with the word `w` presented on the command channel of an idle AG, so that the very next step accepts and
executes it (log entry 8). -/
def State.withFetchWord (s : State) (nbits w : Nat) : State :=
  s.placeWord (BitVec.ofNat 32 (w % 2 ^ nbits))

end Sys2Proof.Machine
end

