-- ==== Sys2Proof/Machine/Assembler.lean ====
section
/-! DEFINITION. The assembler: 30_encoding.md R79 (one command per line, numbers decimal or `0x` hexadecimal, `;` starts a
comment) and R80 (LDDIG). Lines are lists of characters. -/

namespace Sys2Proof.Machine

/-- Why the assembler refuses a line (30_encoding.md R79). -/
inductive AsmError where
  /-- The mnemonic with this number of operands is no form of R79 or R80. -/
  | unknownForm
  /-- An operand is no decimal or hexadecimal number. -/
  | badNumber
  /-- An operand does not fit its field. -/
  | doesNotFit
deriving DecidableEq, Repr

/-- A blank: space, tab or a line's end (log entry 14). -/
def isBlank (c : Char) : Bool := c = ' ' || c = '\t' || c = '\r' || c = '\n'

/-- `cs` without blanks at its start. -/
def dropBlanks (cs : List Char) : List Char := cs.dropWhile isBlank

/-- `cs` without blanks at either end. -/
def trim (cs : List Char) : List Char := (dropBlanks (dropBlanks cs).reverse).reverse

/-- What stands before a comment: "A `;` starts a comment" (30_encoding.md R79). -/
def stripComment (cs : List Char) : List Char := cs.takeWhile (· ≠ ';')

/-- An upper-case letter as its lower case: mnemonics are case-insensitive (30_encoding.md R79). -/
def lowerChar (c : Char) : Char :=
  if 65 ≤ c.toNat && c.toNat ≤ 90 then Char.ofNat (c.toNat + 32) else c

/-- The value of a digit below the base. -/
def digitValue (base : Nat) (c : Char) : Option Nat :=
  let n := (lowerChar c).toNat
  let v := if 48 ≤ n && n ≤ 57 then some (n - 48) else if 97 ≤ n && n ≤ 102 then some (n - 87) else none
  v.filter (· < base)

/-- The digits `cs` read from the most significant on, after the value `acc`. -/
def digitsFrom (base : Nat) : Nat → List Char → Option Nat
  | acc, [] => some acc
  | acc, c :: cs => (digitValue base c).bind fun d => digitsFrom base (acc * base + d) cs

/-- A number: "decimal or `0x` hexadecimal" (30_encoding.md R79); at least one digit. -/
def parseNumber : List Char → Option Nat
  | [] => none
  | ['0', 'x'] => none
  | '0' :: 'x' :: cs => digitsFrom 16 0 cs
  | cs => digitsFrom 10 0 cs

/-- The parts of `cs` between commas, blanks trimmed ("operands separated by commas", 30_encoding.md R79). -/
def splitCommas : List Char → List Char → List (List Char)
  | acc, [] => [trim acc.reverse]
  | acc, ',' :: cs => trim acc.reverse :: splitCommas [] cs
  | acc, c :: cs => splitCommas (c :: acc) cs

/-- The operands of a line after its mnemonic; none where nothing stands there. -/
def parseOperands (cs : List Char) : Option (List Nat) :=
  if dropBlanks cs = [] then some [] else (splitCommas [] cs).mapM parseNumber

/-- The forms of 30_encoding.md R79, and LDDIG (R80). -/
def sourceForm (mnemonic : List Char) (ops : List Nat) : Option Source :=
  match mnemonic, ops with
  | ['n', 'o', 'p'], [] => some .nop
  | ['l', 'd', 'l', 'o'], [i] => some (.ldlo i)
  | ['l', 'd', 'h', 'i'], [i] => some (.ldhi i)
  | ['g', 'e', 'n'], [] => some .gen
  | ['r', 'd', 't', 'r'], [l, s, c] => some (.rdtr l s c)
  | ['r', 'd', 'o', 'u', 't'], [l, s] => some (.rdout l s)
  | ['r', 'd', 'i', 'n', 'i', 't'], [l] => some (.rdinit l)
  | ['r', 'd', 's', 't', 'a', 't'], [] => some .rdstat
  | ['r', 'd', 'd', 'i', 'g'], [] => some .rddig
  | ['c', 'l', 'r', 'e', 'r', 'r'], [] => some .clrerr
  | ['l', 'd', 'd', 'i', 'g'], [i] => some (.lddig i)
  | _, _ => none

/-- The commands of one line; none for a line of blanks or comment only (log entry 14). -/
def assembleLine (line : List Char) : Except AsmError (List Instr) :=
  let body := trim (stripComment line)
  if body = [] then .ok []
  else
    match parseOperands (body.dropWhile (fun c => !isBlank c)) with
    | none => .error .badNumber
    | some ops =>
      match sourceForm ((body.takeWhile (fun c => !isBlank c)).map lowerChar) ops with
      | none => .error .unknownForm
      | some x =>
        match x.commands with
        | none => .error .doesNotFit
        | some is => .ok is

/-- The words of a program's lines, in order; the first refused line refuses the program. -/
def assemble : List (List Char) → Except AsmError (List Word)
  | [] => .ok []
  | line :: rest =>
    match assembleLine line with
    | .error e => .error e
    | .ok is =>
      match assemble rest with
      | .error e => .error e
      | .ok ws => .ok (is.map encode ++ ws)

end Sys2Proof.Machine
end

