-- ==== Sys2Proof/Machine/Port.lean ====
section
/-! DEFINITION. The consumer port, read-only: 10_state.md R37, 44_table_reads.md R173 to R177. A read is one observation of a
state; `obs` numbers the observations made in it, so that two free values need not agree (00_scope.md R10, log entry 3). -/

namespace Sys2Proof.Machine

/-- `tables_valid` = STATUS.VALID (44_table_reads.md R174). -/
def State.tablesValid (s : State) : Bool := s.valid

/-- `tr_data` for `tr_addr` (44_table_reads.md R173). Free while tables_valid = 0 or for layer 3 (R175, R176). -/
def State.trData (s : State) (obs : Nat) (addr : BitVec 15) : StateNo :=
  if s.valid then (s.memReadTrans addr).getD (Config.freeTrans s.draw obs addr) else Config.freeTrans s.draw obs addr

/-- `out_data` for `out_addr` (44_table_reads.md R173, R175, R176). -/
def State.outData (s : State) (obs : Nat) (addr : BitVec 7) : Byte :=
  if s.valid then (s.memReadOut addr).getD (Config.freeOut s.draw obs addr) else Config.freeOut s.draw obs addr

/-- `init_data` for `init_sel` (44_table_reads.md R173, R175, R176). -/
def State.initData (s : State) (obs : Nat) (sel : BitVec 2) : StateNo :=
  if s.valid then (s.memReadInit sel).getD (Config.freeInit s.draw obs sel) else Config.freeInit s.draw obs sel

end Sys2Proof.Machine
end

