-- ==== Sys2Proof/Machine/Consumer.lean ====
section
/-! DEFINITION. The consumer contract: how an encoder and a decoder use the tables, 45_consumers.md R190 to R199. Nothing here is
state of AG. -/

namespace Sys2Proof.Machine

/-- An automaton as a consumer sees it: the triple (TRANS, OUT, INIT) (00_scope.md, Glossary). -/
structure Automaton where
  trans : LayerNo → StateNo → Byte → StateNo
  out : LayerNo → StateNo → Byte
  init : LayerNo → StateNo

/-- `generate(D)` (42_generate.md R131). -/
def generate (m : Mixing) (d : Digest) : Automaton := ⟨transEntry m d, outEntry m d, initEntry m d⟩

/-- What a consumer sees as it processes a string: the automaton it reads at byte `j`. At one byte it reads no address twice
(45_consumers.md R192, R193), so reads without value that it makes need not agree with each other (log entry 12). -/
abbrev View := Nat → Automaton

/-- A consumer that holds one automaton, the same at every byte (45_consumers.md R190). -/
def Automaton.view (a : Automaton) : View := fun _ => a

/-- The two consumers of the tables (45_consumers.md R190). -/
inductive Consumer where
  | encoder
  | decoder
deriving DecidableEq, Repr

/-- The number of the observations that a consumer makes at byte `j` of a string: no two bytes and no two consumers share one, and
`start` sets strings apart (00_scope.md R10, log entry 12). -/
def Consumer.obs : Consumer → Nat → Nat → Nat
  | .encoder, start, j => 2 * (start + j)
  | .decoder, start, j => 2 * (start + j) + 1

/-- The automaton in the observations numbered `obs` of one state. -/
def State.observed (s : State) (obs : Nat) : Automaton where
  trans l st c := s.trData obs (transIndex l st c)
  out l st := s.outData obs (outIndex l st)
  init l := s.initData obs l

/-- What a consumer reads through the port, where `s j` is the state of AG at byte `j`; INIT is read in `s 0` (log entry 19). While `tables_valid` = 0 every read has an
arbitrary value of its own, so that nothing can be proved of the string it produces (45_consumers.md R198). -/
def portView (s : Nat → State) (who : Consumer) (start : Nat) : View := fun j => (s j).observed (who.obs start j)

/-- An invertible byte combine, the consumers' design freedom (93_implementation_defined.md U5): for every output
byte `o`, `undo · o` inverts `op · o`. -/
structure Combine where
  op : Byte → Byte → Byte
  undo : Byte → Byte → Byte
  undo_op : ∀ v o, undo (op v o) o = v

/-- The spec's combine: byte xor (45_consumers.md R191). -/
def xorCombine : Combine where
  op v o := v ^^^ o
  undo v o := v ^^^ o
  undo_op v o := by simp

/-- The current state of each layer, in layer order. -/
abbrev LayerStates := List (LayerNo × StateNo)

/-- `st[l] <- INIT[l] for l in 0..2` (45_consumers.md R192, R193). -/
def startStates (a : Automaton) : LayerStates :=
  (List.range Config.layers).map fun l => (BitVec.ofNat 2 l, a.init (BitVec.ofNat 2 l))

/-- One plaintext byte through the layers in order (45_consumers.md R191, R192): each layer combines its output byte
and moves by the byte that entered it. Answers the new states and the ciphertext byte. -/
def encodeByte (cb : Combine) (a : Automaton) : LayerStates → Byte → LayerStates × Byte
  | [], v => ([], v)
  | (l, st) :: rest, v =>
    let next := encodeByte cb a rest (cb.op v (a.out l st))
    ((l, a.trans l st v) :: next.1, next.2)

/-- One ciphertext byte through the layers in reverse order (45_consumers.md R193): the last layer is undone first,
and each layer moves by the byte that entered it at encode. -/
def decodeByte (cb : Combine) (a : Automaton) : LayerStates → Byte → LayerStates × Byte
  | [], v => ([], v)
  | (l, st) :: rest, v =>
    let inner := decodeByte cb a rest v
    let u := cb.undo inner.2 (a.out l st)
    ((l, a.trans l st u) :: inner.1, u)

/-- The bytes of a string one after another, from byte number `j` on; the layer states persist (45_consumers.md R192, R193). -/
def overString (f : Automaton → LayerStates → Byte → LayerStates × Byte) (v : View) : Nat → LayerStates → List Byte → List Byte
  | _, _, [] => []
  | j, st, b :: bs => let r := f (v j) st b; r.2 :: overString f v (j + 1) r.1 bs

/-- The ciphertext of a string of any length (45_consumers.md R192). INIT is read as byte 0 is seen: the rule puts the reads before the
loop and gives them no moment (DESIGN CHOICE, log entry 19). -/
def encodeBytes (cb : Combine) (v : View) (p : List Byte) : List Byte := overString (encodeByte cb) v 0 (startStates (v 0)) p

/-- The plaintext of a string of any length (45_consumers.md R193). INIT is read as byte 0 is seen, as in `encodeBytes` (DESIGN CHOICE,
log entry 19). -/
def decodeBytes (cb : Combine) (v : View) (ct : List Byte) : List Byte := overString (decodeByte cb) v 0 (startStates (v 0)) ct

/-- A consumer's answer: a string, whose length is the list's (the bytes past it are no part of it, 45_consumers.md
R196), or the rejection signal, whose form is open (R194). -/
abbrev ConsumerResult := Except Nat (List Byte)

/-- The encoder over what it sees: a string longer than MAX_LEN is rejected as a whole (45_consumers.md R192, R194). -/
def encodeView (cb : Combine) (v : View) (p : List Byte) : ConsumerResult :=
  if p.length ≤ Config.maxLen then .ok (encodeBytes cb v p) else .error Config.consumerReject

/-- The decoder over what it sees (45_consumers.md R193, R194). -/
def decodeView (cb : Combine) (v : View) (ct : List Byte) : ConsumerResult :=
  if ct.length ≤ Config.maxLen then .ok (decodeBytes cb v ct) else .error Config.consumerReject

/-- `encode(p, A)` with a combine (45_consumers.md R192). -/
def encodeWith (cb : Combine) (a : Automaton) (p : List Byte) : ConsumerResult := encodeView cb a.view p

/-- `decode(ct, A)` with a combine (45_consumers.md R193). -/
def decodeWith (cb : Combine) (a : Automaton) (ct : List Byte) : ConsumerResult := decodeView cb a.view ct

/-- `encode(p, A)` (45_consumers.md R192). -/
def encodeString (a : Automaton) (p : List Byte) : ConsumerResult := encodeWith xorCombine a p

/-- `decode(ct, A)` (45_consumers.md R193). -/
def decodeString (a : Automaton) (ct : List Byte) : ConsumerResult := decodeWith xorCombine a ct

/-- The encoder at AG's consumer port, `s j` being AG's state at byte `j` (45_consumers.md R190, R192). -/
def portEncode (s : Nat → State) (start : Nat) (p : List Byte) : ConsumerResult :=
  encodeView xorCombine (portView s .encoder start) p

/-- The decoder at AG's consumer port, `s j` being AG's state at byte `j` (45_consumers.md R190, R193). -/
def portDecode (s : Nat → State) (start : Nat) (ct : List Byte) : ConsumerResult :=
  decodeView xorCombine (portView s .decoder start) ct

end Sys2Proof.Machine
end

