-- ==== Sys2Proof/Machine/KeyHash.lean ====
section
/-! DEFINITION. The upstream key hash (key_hash_mixer), the contract AG's digest is made under: 41_key_hash.md R120 to R125. -/

namespace Sys2Proof.Machine

/-- The loop of 41_key_hash.md R121 from position `i` with accumulator `h`. -/
def hashLoop (m : Mixing) : Nat → Word → List Byte → Word
  | _, h, [] => h
  | i, h, b :: bs =>
    let x := (m.sbox (m.rotl8 b (i % 8))).setWidth 32
    hashLoop m (i + 1) (m.wo ((h ^^^ x) + BitVec.ofNat 32 (i + 1) * 0x01000193)) bs

/-- The accumulator `h` after the last byte (41_key_hash.md R121). -/
def hashAcc (m : Mixing) (key : List Byte) : Word := hashLoop m 0 0x811C9DC5 key

/-- `hash(key)` for any byte sequence, without the bound (41_key_hash.md R121). -/
def hashBytes (m : Mixing) (key : List Byte) : Digest := m.wo (hashAcc m key ^^^ BitVec.ofNat 32 key.length)

/-- `hash(key)`: a key longer than KEY_MAX is refused with no digest produced (41_key_hash.md R122). -/
def hash (m : Mixing) (key : List Byte) : Option Digest :=
  if key.length ≤ Config.keyMax then some (hashBytes m key) else none

/-- 41_key_hash.md R123: `pick_symbol(h, i)`. -/
def pickSymbol (m : Mixing) (h i : Digest) : Byte := m.sbox ((m.wo (h + i)).setWidth 8)

/-- 41_key_hash.md R124: the synthesised key of `SYNTH_KEY_LEN` bytes. -/
def synthKey (m : Mixing) (h : Digest) : List Byte :=
  (List.range Config.synthKeyLen).map fun i => pickSymbol m h (BitVec.ofNat 32 i)

/-- 41_key_hash.md R124: the digest of a call-site identifier. -/
def callSiteDigest (m : Mixing) (identifier : List Byte) : Option Digest :=
  (hash m identifier).bind fun h => hash m (synthKey m h)

end Sys2Proof.Machine
end

