-- ==== Sys2Proof/Machine/Command.lean ====
section
/-! DEFINITION. AG at the command level: "one step of the model consumes one command word and produces its response word"
(00_scope.md R11), with both phases of a GEN in one step (42_generate.md R132). It has no schedule: it is what every
timing of the events must amount to (70_reset_and_hazards.md R240). -/

namespace Sys2Proof.Machine

/-- The response a state holds, or none (10_state.md R36). -/
def State.pending (s : State) : Option Response :=
  match s.phase with
  | .respond r => some r
  | _ => none

/-- A GEN in progress completes (42_generate.md R132, phase 2); any other state is as it was. -/
def State.settle (s : State) : State :=
  match s.phase with
  | .generating _ => s.finishGen
  | _ => s

/-- The response in a state is taken, if one is pending (10_state.md R36). -/
def State.takeResponse (s : State) : State :=
  match s.phase with
  | .respond r => s.transfer r
  | _ => s

/-- The state at the command level as a word is accepted: AG holds the word, and the draws move on, as at every step, so that an
arbitrary consumer read before a command and one after it need not agree (00_scope.md R10; DESIGN CHOICE, log entry 3). -/
def State.begin (s : State) (w : Word) : State := { s with phase := .busy w, draw := s.draw + 1 }

/-- One command word, from acceptance to its response being taken (00_scope.md R11). -/
def command (w : Word) (s : State) : Result :=
  match runWord w (s.begin w) with
  | .next t => .next t.settle.takeResponse
  | .fault f => .fault f
  | .refused r => .refused r

/-- A command stream, one command after another in order (20_memory.md R59). -/
def commands : List Word → State → Result
  | [], s => .next s
  | w :: ws, s =>
    match command w s with
    | .next t => commands ws t
    | .fault f => .fault f
    | .refused r => .refused r

end Sys2Proof.Machine
end

