-- ==== Sys2Proof/Safety.lean ====
section
/-! DEFINITION. What the claims speak of: the legal states, runs, and what an observer of AG can see. -/

namespace Sys2Proof.Machine

/-- A response carries a legal value: an error response carries one of the codes 0x01 to 0x04 (60_exceptions.md R201, R203). -/
def Response.Legal (r : Response) : Prop := r.err = true → 1 ≤ r.data.toNat ∧ r.data.toNat ≤ 4

/-- The invariant of AG's states. -/
structure State.Inv (s : State) : Prop where
  /-- ECODE holds 0x00 to 0x04 (10_state.md R25). -/
  ecode_legal : s.ecode.toNat ≤ 4
  /-- With VALID = 1 a GEN has completed, so GD exists (10_state.md R24, R29). -/
  valid_has_gd : s.valid = true → ∃ d, s.gd = some d
  /-- During a GEN, VALID = 0 and GSEQ names a step 0 to 24674 (10_state.md R24, R30). -/
  generating_legal : ∀ k, s.phase = .generating k → s.valid = false ∧ k.toNat < Config.genSteps
  /-- A BUSY AG holds no GEN: BUSY is for every other command (10_state.md R32, 42_generate.md R132). -/
  busy_not_gen : ∀ w, s.phase = .busy w → decode w ≠ .ok .gen
  /-- A pending error response has a legal code, and an error is recorded (60_exceptions.md R201, R204). -/
  pending_legal : ∀ r, s.phase = .respond r → r.Legal ∧ (r.err = true → s.ecode ≠ 0)
  /-- So has every response already taken. -/
  taken_legal : ∀ r ∈ s.taken, r.Legal

/-- The tables hold the automaton `generate(d)`, whole (10_state.md R24, 42_generate.md R131, R143). -/
def State.Holds (s : State) (d : Digest) : Prop :=
  ∀ e : Entry, e.populated = true → s.entry e = some (entryValue specMixing d e)

/-- Reset is asserted in no scheduled tick, nor after the last. -/
def State.NoReset (s : State) : Prop := (∀ t ∈ s.sched, t.rst = false) ∧ s.rest.rst = false

/-- After the schedule the master presents its words and takes every response: "given `rsp_ready` eventually 1"
(70_reset_and_hazards.md R241). -/
def State.MasterGoesOn (s : State) : Prop := s.rest.cmdValid = true ∧ s.rest.rspReady = true

/-- The master never takes a response again, and reset is never asserted (70_reset_and_hazards.md R239). -/
def State.NeverTaken (s : State) : Prop :=
  (∀ t ∈ s.sched, t.rspReady = false ∧ t.rst = false) ∧ s.rest.rspReady = false ∧ s.rest.rst = false

/-- A command is in AG or its response is not yet taken: one command then owes a response (10_state.md R35, R36). -/
def State.owed (s : State) : Nat := if s.phase = .idle then 0 else 1

/-- The state after a command that ended in error with `code` (60_exceptions.md R203, R204, R205), written out: the claims
compare what AG does with this. -/
def State.endedInError (s : State) (code : Byte) : State :=
  { s with ecode := if s.ecode = 0 then code else s.ecode, phase := .respond ⟨true, code.setWidth 32⟩ }

/-- The state after a command that responded `data` and changed nothing else (30_encoding.md R72). -/
def State.responding (s : State) (data : Word) : State := { s with phase := .respond ⟨false, data⟩ }

/-- The word in AG at the next step, if there is one: the word held in BUSY, or the word accepted in IDLE (10_state.md R32, R35). -/
def State.atHand (s : State) : Option Word :=
  match s.phase with
  | .busy w => some w
  | .idle => presented s.tick s
  | _ => none

/-- The word that the next step executes, if it executes one: the word in AG, when it runs in the tick (42_generate.md R132,
70_reset_and_hazards.md R240). -/
def State.executing (s : State) : Option Word := if s.tick.rst then none else s.atHand.filter s.tick.runs

/-- The next step executes the command `i`. -/
def State.Executes (s : State) (i : Instr) : Prop := ∃ w, s.executing = some w ∧ decode w = .ok i

/-- What AG's own state and the master's record show, without the model's schedule and draws. -/
structure Visible where
  digest : Digest
  valid : Bool
  ecode : Byte
  gd : Option Digest
  phase : Phase
  cmds : List Word
  taken : List Response
deriving DecidableEq, Repr

/-- The visible part of a state. -/
def State.visible (s : State) : Visible := ⟨s.digest, s.valid, s.ecode, s.gd, s.phase, s.cmds, s.taken⟩

end Sys2Proof.Machine
end

