-- ==== Sys2Proof/Certificates/Slice0/Obligations.lean ====
section
/-! DEFINITION. The statements for the provers, listed in OBLIGATIONS.json. Each docstring names the rules of spec/ it comes from. -/

open Sys2Proof Sys2Proof.Machine

/-! ### Encoding and decoding -/

/-- 30_encoding.md R70 to R75: the decoder reads every command back from the word the encoder gives it. -/
def Obligations.DecodeOfEncodeIsTheCommand : Prop :=
  ∀ i : Instr, decode (encode i) = .ok i

/-- 30_encoding.md R71, R75: a word that decodes has one reading, and encoding it gives the word back, every bit of it. -/
def Obligations.EncodeOfDecodedWordIsTheWord : Prop :=
  ∀ (w : Word) (i : Instr), decode w = .ok i → encode i = w

/-- 30_encoding.md R75: a word is a command exactly when a row of the opcode map selects it, and then the row of the command it
decodes to is the one row that does. -/
def Obligations.DecodeFollowsTheOpcodeMap : Prop :=
  ∀ w : Word,
    ((∃ i, decode w = .ok i) ↔ ∃ r ∈ opcodeMap, r.selects w = true) ∧
    (∀ i, decode w = .ok i → ∀ r ∈ opcodeMap, (r.selects w = true ↔ r = i.row))

/-- 30_encoding.md R76, R77, R78 and 60_exceptions.md R206: what executing a word amounts to, the causes in their order.
Exactly one of the five outcomes happens, and the last is a command that ends without error. -/
def Obligations.WordOutcomeFollowsThePriority : Prop :=
  ∀ (w : Word) (s : State),
    (0xA ≤ opcField w → runWord w s = .next (s.endedInError 0x01)) ∧
    (opcField w < 0xA → w &&& rsvdMask (opcField w) ≠ 0 → runWord w s = .next (s.endedInError 0x02)) ∧
    (opcField w < 0xA → w &&& rsvdMask (opcField w) = 0 →
      (opcField w = 4 ∨ opcField w = 5 ∨ opcField w = 6) → w.extractLsb' 26 2 = 3 →
        runWord w s = .next (s.endedInError 0x03)) ∧
    (opcField w < 0xA → w &&& rsvdMask (opcField w) = 0 →
      (opcField w = 4 ∨ opcField w = 5 ∨ opcField w = 6) → w.extractLsb' 26 2 ≠ 3 → s.valid = false →
        runWord w s = .next (s.endedInError 0x04)) ∧
    (opcField w < 0xA → w &&& rsvdMask (opcField w) = 0 →
      ((opcField w = 4 ∨ opcField w = 5 ∨ opcField w = 6) → w.extractLsb' 26 2 ≠ 3 ∧ s.valid = true) →
        ∃ i t, decode w = .ok i ∧ runWord w s = .next t ∧ exec i s = .next t ∧
          ∀ r, t.phase = .respond r → r.err = false)

/-- 30_encoding.md R79: the examples, and a word of every other format, decode to the commands they stand for. -/
def Obligations.SampleWordsDecode : Prop :=
  decode 0x4BFFE000 = .ok (.rdtr 2 31 255) ∧
  decode 0x44A82000 = .ok (.rdtr 1 5 0x41) ∧
  decode 0x5BE00000 = .ok (.rdout 2 31) ∧
  decode 0x68000000 = .ok (.rdinit 2) ∧
  decode 0x1000F918 = .ok (.ldlo 0xF918) ∧
  decode 0x20009CE4 = .ok (.ldhi 0x9CE4) ∧
  decode 0x30000000 = .ok .gen

/-- 30_encoding.md R79, R80: a statement is refused exactly where an operand does not fit its field, LDDIG where its number does not
fit 32 bits, and the statement of a command stands for exactly that command. -/
def Obligations.AssemblerRefusesExactlyWhatDoesNotFit : Prop :=
  (∀ i l s c : Nat,
    (((Source.ldlo i).commands = none ↔ 0xFFFF < i) ∧ ((Source.ldhi i).commands = none ↔ 0xFFFF < i)) ∧
    (((Source.rdtr l s c).commands = none ↔ (3 < l ∨ 31 < s ∨ 255 < c)) ∧
     ((Source.rdout l s).commands = none ↔ (3 < l ∨ 31 < s)) ∧ ((Source.rdinit l).commands = none ↔ 3 < l)) ∧
    ((Source.lddig i).commands = none ↔ 0xFFFFFFFF < i)) ∧
  (∀ i : Instr, i.toSource.commands = some [i])

/-! ### Commands: what each does -/

/-- 43_register_commands.md R150, NOP. -/
def Obligations.NopRespondsZeroAndChangesNothing : Prop :=
  ∀ s : State,
    exec .nop s = .next (s.responding 0) ∧
    runWord 0x00000000 s = exec .nop s ∧
    (∀ w : Word, opcField w = 0x0 → w.extractLsb' 0 28 ≠ 0 → runWord w s = .next (s.endedInError 0x02))

/-- 43_register_commands.md R151, LDLO: the low half is IMM16, the high half is as it was, nothing else changes. -/
def Obligations.LdloLoadsTheLowHalf : Prop :=
  ∀ (imm : Half) (s : State),
    (∃ d : Digest, exec (.ldlo imm) s = .next ({ s with digest := d }.responding 0) ∧
      (∀ i, i < 16 → d.getLsbD i = imm.getLsbD i) ∧ (∀ i, 16 ≤ i → d.getLsbD i = s.digest.getLsbD i)) ∧
    (∀ w : Word, opcField w = 0x1 → w.extractLsb' 16 12 = 0 → runWord w s = exec (.ldlo (w.extractLsb' 0 16)) s) ∧
    (∀ w : Word, opcField w = 0x1 → w.extractLsb' 16 12 ≠ 0 → runWord w s = .next (s.endedInError 0x02))

/-- 43_register_commands.md R152, LDHI: the high half is IMM16, the low half is as it was, nothing else changes; "LDLO and LDHI
commute". -/
def Obligations.LdhiLoadsTheHighHalf : Prop :=
  ∀ (imm : Half) (s : State),
    (∃ d : Digest, exec (.ldhi imm) s = .next ({ s with digest := d }.responding 0) ∧
      (∀ i, i < 16 → d.getLsbD i = s.digest.getLsbD i) ∧ (∀ i, i < 16 → d.getLsbD (16 + i) = imm.getLsbD i)) ∧
    (∀ w : Word, opcField w = 0x2 → w.extractLsb' 16 12 = 0 → runWord w s = exec (.ldhi (w.extractLsb' 0 16)) s) ∧
    (∀ w : Word, opcField w = 0x2 → w.extractLsb' 16 12 ≠ 0 → runWord w s = .next (s.endedInError 0x02)) ∧
    (∀ lo : Half, ∃ t u v, exec (.ldlo lo) s = .next t ∧ exec (.ldhi imm) t = .next v ∧
      exec (.ldhi imm) s = .next u ∧ exec (.ldlo lo) u = .next v ∧ v.digest = imm ++ lo)

/-- 30_encoding.md R80: LDDIG of a 32-bit number is LDLO of its low half, then LDHI of its high half, and the two load it. -/
def Obligations.LddigLoadsTheWholeDigest : Prop :=
  ∀ (d : Digest) (s : State),
    ∃ lo hi t u, (Source.lddig d.toNat).commands = some [.ldlo lo, .ldhi hi] ∧
      lo = d.extractLsb' 0 16 ∧ hi = d.extractLsb' 16 16 ∧
      exec (.ldlo lo) s = .next t ∧ exec (.ldhi hi) t = .next u ∧ u = { s with digest := d }.responding 0

/-- 43_register_commands.md R153, RDSTAT: the STATUS word by the places of its fields (10_state.md R23), whatever VALID is. -/
def Obligations.RdstatRespondsTheStatusWord : Prop :=
  ∀ s : State,
    exec .rdstat s = .next (s.responding
      ((s.ecode.setWidth 32 <<< 8) ||| (if s.ecode = 0 then 0 else 2) ||| (if s.valid then 1 else 0))) ∧
    runWord 0x70000000 s = exec .rdstat s ∧
    (∀ w : Word, opcField w = 0x7 → w.extractLsb' 0 28 ≠ 0 → runWord w s = .next (s.endedInError 0x02))

/-- 43_register_commands.md R154, RDDIG: it responds DIGEST and changes nothing. -/
def Obligations.RddigRespondsTheDigest : Prop :=
  ∀ s : State,
    exec .rddig s = .next (s.responding s.digest) ∧
    runWord 0x80000000 s = exec .rddig s ∧
    (∀ w : Word, opcField w = 0x8 → w.extractLsb' 0 28 ≠ 0 → runWord w s = .next (s.endedInError 0x02))

/-- 43_register_commands.md R155, CLRERR: ECODE becomes 0 and nothing else changes; a CLRERR word with a reserved bit set clears
nothing and is an error itself. -/
def Obligations.ClrerrClearsTheRecord : Prop :=
  ∀ s : State,
    exec .clrerr s = .next ({ s with ecode := 0 }.responding 0) ∧
    runWord 0x90000000 s = exec .clrerr s ∧
    (∀ w : Word, opcField w = 0x9 → w.extractLsb' 0 28 ≠ 0 → runWord w s = .next (s.endedInError 0x02))

/-- 44_table_reads.md R170, RDTR: its two errors in their order, and the entry it responds. -/
def Obligations.RdtrRespondsTheTransitionEntry : Prop :=
  ∀ (l : LayerNo) (st : StateNo) (c : Byte) (s : State),
    (l = 3 → exec (.rdtr l st c) s = .next (s.endedInError 0x03)) ∧
    (l ≠ 3 → s.valid = false → exec (.rdtr l st c) s = .next (s.endedInError 0x04)) ∧
    (∀ d, l ≠ 3 → s.valid = true → s.gd = some d →
      s.trans l st c = some (transEntry specMixing d l st c) ∧
      exec (.rdtr l st c) s = .next (s.responding ((transEntry specMixing d l st c).setWidth 32))) ∧
    (∀ w : Word, opcField w = 0x4 → w.extractLsb' 0 13 = 0 →
      runWord w s = exec (.rdtr (w.extractLsb' 26 2) (w.extractLsb' 21 5) (w.extractLsb' 13 8)) s) ∧
    (∀ w : Word, opcField w = 0x4 → w.extractLsb' 0 13 ≠ 0 → runWord w s = .next (s.endedInError 0x02))

/-- 44_table_reads.md R171, RDOUT. -/
def Obligations.RdoutRespondsTheOutputByte : Prop :=
  ∀ (l : LayerNo) (st : StateNo) (s : State),
    (l = 3 → exec (.rdout l st) s = .next (s.endedInError 0x03)) ∧
    (l ≠ 3 → s.valid = false → exec (.rdout l st) s = .next (s.endedInError 0x04)) ∧
    (∀ d, l ≠ 3 → s.valid = true → s.gd = some d →
      s.out l st = some (outEntry specMixing d l st) ∧
      exec (.rdout l st) s = .next (s.responding ((outEntry specMixing d l st).setWidth 32))) ∧
    (∀ w : Word, opcField w = 0x5 → w.extractLsb' 0 21 = 0 →
      runWord w s = exec (.rdout (w.extractLsb' 26 2) (w.extractLsb' 21 5)) s) ∧
    (∀ w : Word, opcField w = 0x5 → w.extractLsb' 0 21 ≠ 0 → runWord w s = .next (s.endedInError 0x02))

/-- 44_table_reads.md R172, RDINIT; LAYER_RANGE comes before NOT_VALID. -/
def Obligations.RdinitRespondsTheInitialState : Prop :=
  ∀ (l : LayerNo) (s : State),
    (l = 3 → exec (.rdinit l) s = .next (s.endedInError 0x03)) ∧
    (l ≠ 3 → s.valid = false → exec (.rdinit l) s = .next (s.endedInError 0x04)) ∧
    (∀ d, l ≠ 3 → s.valid = true → s.gd = some d →
      s.init l = some (initEntry specMixing d l) ∧
      exec (.rdinit l) s = .next (s.responding ((initEntry specMixing d l).setWidth 32))) ∧
    (∀ w : Word, opcField w = 0x6 → w.extractLsb' 0 26 = 0 → runWord w s = exec (.rdinit (w.extractLsb' 26 2)) s) ∧
    (∀ w : Word, opcField w = 0x6 → w.extractLsb' 0 26 ≠ 0 → runWord w s = .next (s.endedInError 0x02))

/-! ### GEN and the tables -/

/-- 42_generate.md R130, R132: GEN's phase 1. VALID becomes 0, no entry holds a value, GSEQ starts at 0, DIGEST and ECODE stay, and
no response is made yet. A GEN word with a reserved bit set starts nothing. -/
def Obligations.GenPhaseOneEmptiesTheTables : Prop :=
  ∀ s : State,
    (∃ t, exec .gen s = .next t ∧ t = { s with valid := false, phase := .generating 0 } ∧ ∀ e : Entry, t.entry e = none) ∧
    runWord 0x30000000 s = exec .gen s ∧
    (∀ w : Word, opcField w = 0x3 → w.extractLsb' 0 28 ≠ 0 → runWord w s = .next (s.endedInError 0x02))

/-- 42_generate.md R144, 10_state.md R30: the internal steps name every entry exactly once, OUT before its row of TRANS, the
initial states last. -/
def Obligations.InternalStepsNameEachEntryOnce : Prop :=
  (∀ k, k < 24675 → ∃! e : Entry, e.populated = true ∧ e.stepNo = k) ∧
  (∀ e : Entry, e.populated = true → e.stepNo < 24675 ∧ entryAt e.stepNo = some e) ∧
  (∀ (l : LayerNo) (s : StateNo) (c : Byte), l ≠ 3 →
    entryAt ((l.toNat * 32 + s.toNat) * 257) = some (.out l s) ∧
    entryAt ((l.toNat * 32 + s.toNat) * 257 + 1 + c.toNat) = some (.trans l s c) ∧
    entryAt (24672 + l.toNat) = some (.init l))

/-- 42_generate.md R130 ("MemWrite(entry(k), value(k))"), R144: one internal step writes the one entry of its number and no
other, and GSEQ advances by one (10_state.md R30). -/
def Obligations.InternalStepWritesExactlyItsEntry : Prop :=
  ∀ (s : State) (k : BitVec 15), s.phase = .generating k → s.valid = false → k.toNat < 24674 →
    s.tick.rst = false → s.tick.seqSteps ≤ 1 →
    ∃ t, step s = .next t ∧ t.phase = .generating (k + 1) ∧ t.valid = false ∧ t.digest = s.digest ∧ t.ecode = s.ecode ∧
      ∀ e : Entry, e.populated = true →
        t.entry e = if e.stepNo = k.toNat then some (entryValue specMixing s.digest e) else s.entry e

/-- 42_generate.md R130, R132, R143: GEN's phase 2. With the last internal step every entry holds `generate(DIGEST)`, VALID becomes 1,
GD is DIGEST, and the response is (0, 0). -/
def Obligations.GenPhaseTwoFillsTheTables : Prop :=
  ∀ (s : State) (k : BitVec 15), s.phase = .generating k → s.tick.rst = false → 24675 ≤ k.toNat + max 1 s.tick.seqSteps →
    ∃ t, step s = .next t ∧ t.phase = .respond ⟨false, 0⟩ ∧ t.valid = true ∧ t.gd = some s.digest ∧ t.Holds s.digest ∧
      t.digest = s.digest ∧ t.ecode = s.ecode ∧ t.cmds = s.cmds ∧ t.taken = s.taken

/-- 42_generate.md R142, R145, 60_exceptions.md R210, 70_reset_and_hazards.md R241: whatever the digest and the timing, a GEN that
no reset interrupts completes, within one step for each internal step left. -/
def Obligations.EveryGenerationCompletes : Prop :=
  ∀ (s : State) (k : BitVec 15), s.phase = .generating k → s.NoReset →
    ∃ n t, n ≤ max 1 (24675 - k.toNat) ∧ Host.Core.run Sys2Proof.core n s = .next t ∧
      t.phase = .respond ⟨false, 0⟩ ∧ t.valid = true ∧ t.gd = some s.digest ∧ t.Holds s.digest ∧
      t.digest = s.digest ∧ t.ecode = s.ecode ∧ t.cmds = s.cmds ∧ t.taken = s.taken

/-- 42_generate.md R140, R146: after a GEN nothing of an earlier automaton is left, and equal digests leave equal tables, whatever
the two states were. -/
def Obligations.EqualDigestsGenerateEqualTables : Prop :=
  ∀ s u : State, s.digest = u.digest →
    ∃ t v, command 0x30000000 s = .next t ∧ command 0x30000000 u = .next v ∧
      t.valid = true ∧ v.valid = true ∧ t.Holds s.digest ∧ ∀ e : Entry, t.entry e = v.entry e

/-- 10_state.md R24: in the states of the invariant, VALID is 1 exactly when every entry holds the value that generation gives for
GD. -/
def Obligations.ValidExactlyWhenTablesHoldGd : Prop :=
  ∀ s : State, s.Inv → (s.valid = true ↔ ∃ d, s.gd = some d ∧ s.Holds d)

/-- 42_generate.md R133 to R138: the seeds, the key fields, the row permutation and the three kinds of entry, the additions as sums of
numbers: the fields k1, k2, k3 and ko are the four bytes of the row seed, r is ko mod 8, a transition entry is its row permutation
mod 32, and an output entry is the substituted ko with the state in it. -/
def Obligations.GenerationFieldsAsNumbers : Prop :=
  ∀ (d : Digest) (l : LayerNo) (s : StateNo) (c : Byte) (rs : Word),
    (layerConst l).toNat = (l.toNat + 1) * 0x85EBCA6B % 2 ^ 32 ∧ layerSeed specMixing d l = wo (d ^^^ layerConst l) ∧
    (rowConst s).toNat = (s.toNat + 1) * 0x27D4EB2F % 2 ^ 32 ∧
    rowSeed specMixing d l s = wo (wo (d ^^^ layerConst l) ^^^ rowConst s) ∧
    rs.toNat = (rowK1 rs).toNat + 256 * (rowK2 rs).toNat + 65536 * (rowK3 rs).toNat + 16777216 * (rowKo rs).toNat ∧
    (rowRot rs).toNat = (rowKo rs).toNat % 8 ∧
    rowPerm specMixing rs c =
      scramble (sbox (BitVec.ofNat 8 ((rotl8 (c ^^^ rowK1 rs) (rowRot rs).toNat).toNat + (rowK2 rs).toNat))) ^^^ rowK3 rs ∧
    outEntry specMixing d l s = sbox (scramble (rowKo (rowSeed specMixing d l s)) ^^^ BitVec.ofNat 8 s.toNat) ∧
    (transEntry specMixing d l s c).toNat = (rowPerm specMixing (rowSeed specMixing d l s) c).toNat % 32 ∧
    (initEntry specMixing d l).toNat = (wo (d ^^^ 0xC2B2AE35 ^^^ layerConst l)).toNat % 32

/-- 42_generate.md R139: each row is balanced: the row permutation is a bijection, and each state is the target of exactly 8
symbols. -/
def Obligations.EveryRowIsBalanced : Prop :=
  ∀ (d : Digest) (l : LayerNo) (s : StateNo),
    Function.Bijective (rowPerm specMixing (rowSeed specMixing d l s)) ∧
    ∀ v : StateNo, ((List.finRange 256).filter fun c => transEntry specMixing d l s (BitVec.ofFin c) = v).length = 8

/-- 93_implementation_defined.md U5, 42_generate.md R139: the row permutation is a bijection for every choice of mixing functions
whose rotate, substitution and scramble are. -/
def Obligations.RowPermutationBijectiveForEveryMixing : Prop :=
  ∀ (m : Mixing) (rs : Word), (∀ n, Function.Bijective fun b => m.rotl8 b n) → Function.Bijective m.sbox →
    Function.Bijective m.scramble → Function.Bijective (rowPerm m rs)

/-! ### Who may change what -/

/-- 20_memory.md R57, 70_reset_and_hazards.md R234: no command but GEN changes what any table entry holds. -/
def Obligations.OnlyGenChangesTheTables : Prop :=
  ∀ (i : Instr) (s : State), i ≠ .gen → s.gseq = none →
    ∃ t, exec i s = .next t ∧ t.valid = s.valid ∧ t.gd = s.gd ∧ ∀ e : Entry, t.entry e = s.entry e

/-- 10_state.md R24 ("No other event changes it"): a step changes VALID only by reset, by starting a GEN or by completing one. -/
def Obligations.ValidChangesOnlyByGenOrReset : Prop :=
  ∀ s t : State, step s = .next t → t.valid ≠ s.valid →
    (s.tick.rst = true ∧ t.valid = false) ∨ (s.Executes .gen ∧ t.valid = false ∧ t.phase = .generating 0) ∨
    (s.tick.rst = false ∧ (∃ k, s.phase = .generating k) ∧ t.valid = true ∧ t.gd = some s.digest ∧
      t.phase = .respond ⟨false, 0⟩)

/-- 10_state.md R21: a step changes DIGEST only by reset, by LDLO or by LDHI. -/
def Obligations.DigestChangesOnlyByLoadsOrReset : Prop :=
  ∀ s t : State, step s = .next t → t.digest ≠ s.digest →
    (s.tick.rst = true ∧ t.digest = 0) ∨ (∃ imm, s.Executes (.ldlo imm)) ∨ (∃ imm, s.Executes (.ldhi imm))

/-- 60_exceptions.md R204: a recorded error stays recorded until a CLRERR or a reset, whatever errors follow. -/
def Obligations.RecordedErrorIsSticky : Prop :=
  ∀ s t : State, step s = .next t → s.ecode ≠ 0 → t.ecode ≠ s.ecode →
    t.ecode = 0 ∧ (s.tick.rst = true ∨ s.Executes .clrerr)

/-- 60_exceptions.md R203, R204, R205: a word that ends in error leaves the state before it, with the code in the response and,
if none was recorded, in ECODE; nothing else changes. -/
def Obligations.ErrorsArePrecise : Prop :=
  ∀ (w : Word) (s t : State) (r : Response), runWord w s = .next t → t.phase = .respond r → r.err = true →
    ∃ code : Byte, (code = 1 ∨ code = 2 ∨ code = 3 ∨ code = 4) ∧ r.data = code.setWidth 32 ∧ t = s.endedInError code

/-- 20_memory.md R56, 43_register_commands.md R150: NOP, the table reads, RDSTAT and RDDIG change no state but, when they end in
error, ECODE. -/
def Obligations.ReadsChangeNoState : Prop :=
  ∀ (i : Instr) (s : State), i ≠ .gen → (∀ imm, i ≠ .ldlo imm) → (∀ imm, i ≠ .ldhi imm) → i ≠ .clrerr →
    ∃ t r, exec i s = .next t ∧ t = { s with ecode := t.ecode, phase := .respond r } ∧
      (r.err = false → t.ecode = s.ecode)

/-- 10_state.md R29: GD is not readable by any command. While VALID = 0 two states that differ only in GD behave alike. -/
def Obligations.HiddenGdIsUnreadableWhileNotValid : Prop :=
  ∀ (s : State) (g : Option Word), s.valid = false →
    ∃ t u, step s = .next t ∧ step { s with gd := g } = .next u ∧
      t.digest = u.digest ∧ t.valid = u.valid ∧ t.ecode = u.ecode ∧ t.phase = u.phase ∧ t.cmds = u.cmds ∧
      t.taken = u.taken ∧ ∀ e : Entry, t.entry e = u.entry e

/-! ### Steps, channels and reset -/

/-- 10_state.md R31, R32, R35, 42_generate.md R132, 30_encoding.md R78: what a step does with a word that is presented to an idle AG or
held by a BUSY one. Without reset: a command is executed, a GEN as soon as it is accepted and any other when the tick lets it; a
word that is no command ends in its error; a word that the tick does not let through leaves AG BUSY with it, and nothing else is
changed. Around it the word leaves the master's list, the tick is used up and the draws move on. That a BUSY AG holds its word and
does nothing else until then is the model's own (log entry 5), and so are the ticks, the draws and the list (log entries 1, 3, 8). -/
def Obligations.StepRunsTheDecodedCommand : Prop :=
  ∀ (s : State) (w : Word), s.tick.rst = false →
    (∀ i, decode w = .ok i → s.tick.cmdDone = true ∨ i = .gen →
      (∀ ws, s.phase = .idle → s.tick.cmdValid = true → s.cmds = w :: ws →
        step s = exec i { s with phase := .busy w, cmds := ws, sched := s.sched.tail, draw := s.draw + 1 }) ∧
      (s.phase = .busy w → step s = exec i { s with sched := s.sched.tail, draw := s.draw + 1 })) ∧
    (decode w = .ok .gen → ∀ ws, s.phase = .idle → s.tick.cmdValid = true → s.cmds = w :: ws →
      step s = .next { s with valid := false, phase := .generating 0, cmds := ws, sched := s.sched.tail, draw := s.draw + 1 }) ∧
    (∀ e : DecodeError, decode w = .error e → s.tick.cmdDone = true →
      (∀ ws, s.phase = .idle → s.tick.cmdValid = true → s.cmds = w :: ws →
        step s = .next ({ s with phase := .busy w, cmds := ws, sched := s.sched.tail, draw := s.draw + 1 }.endedInError
          (if e = DecodeError.illegalOpcode then 0x01 else 0x02))) ∧
      (s.phase = .busy w → step s = .next ({ s with sched := s.sched.tail, draw := s.draw + 1 }.endedInError
        (if e = DecodeError.illegalOpcode then 0x01 else 0x02)))) ∧
    (decode w ≠ .ok .gen → s.tick.cmdDone = false →
      (∀ ws, s.phase = .idle → s.tick.cmdValid = true → s.cmds = w :: ws →
        step s = .next { s with phase := .busy w, cmds := ws, sched := s.sched.tail, draw := s.draw + 1 }) ∧
      (s.phase = .busy w → step s = .next { s with sched := s.sched.tail, draw := s.draw + 1 }))

/-- 60_exceptions.md R200, R208: every step of every state has a next state: no command, word or input stops AG. That a step in which
nothing can happen (an idle AG without a word, a response that is not taken) has a next state too, and is no fault, is the model's
choice (log entry 17). -/
def Obligations.NoStepEverStops : Prop :=
  ∀ s : State, ∃ t, step s = .next t

/-- 10_state.md R35, 70_reset_and_hazards.md R238: a word is accepted only while `cmd_ready` = 1, that is in IDLE without reset, one at a
time and the oldest first; otherwise the master's words stay. -/
def Obligations.AcceptsOnlyWhenReady : Prop :=
  ∀ s t : State, step s = .next t →
    (s.cmdReady = true ↔ s.phase = .idle ∧ s.tick.rst = false) ∧
    (t.cmds = s.cmds ∨ (s.cmdReady = true ∧ ∃ w, s.cmds = w :: t.cmds))

/-- 10_state.md R36, 70_reset_and_hazards.md R239: a pending response is held steady while `rsp_ready` = 0 and no command is accepted;
with `rsp_ready` = 1 it is transferred and PHASE returns to IDLE. -/
def Obligations.ResponseIsHeldUntilTaken : Prop :=
  ∀ (s : State) (r : Response), s.phase = .respond r → s.tick.rst = false →
    s.rspOut = some r ∧
    (s.tick.rspReady = false → ∃ t, step s = .next t ∧ t.visible = s.visible) ∧
    (s.tick.rspReady = true → ∃ t, step s = .next t ∧
      t.visible = { s.visible with phase := .idle, taken := s.taken ++ [r] })

/-- 70_reset_and_hazards.md R239: AG accepts no command while a response is pending, and a master that never takes it stalls AG for
good: after any number of steps nothing has changed, the response is still offered and AG is not ready. The master's inputs are read
from the model's schedule and from what follows it (log entries 1, 17). -/
def Obligations.UntakenResponseStallsForGood : Prop :=
  (∀ (s t : State) (r : Response), s.phase = .respond r → step s = .next t → t.cmds = s.cmds) ∧
  (∀ (s : State) (r : Response) (n : Nat), s.phase = .respond r → s.NeverTaken →
    ∃ t, Host.Core.run Sys2Proof.core n s = .next t ∧ t.visible = s.visible ∧ t.cmdReady = false ∧ t.rspOut = some r)

/-- 10_state.md R36: every accepted command produces exactly one response, in order. Without reset, words waiting, the command in AG
and responses taken keep their sum, and a response once taken stays where it is. -/
def Obligations.OneResponsePerCommand : Prop :=
  ∀ s t : State, step s = .next t → s.tick.rst = false →
    t.taken.length + t.owed + t.cmds.length = s.taken.length + s.owed + s.cmds.length ∧ s.taken <+: t.taken

/-- 70_reset_and_hazards.md R230, 42_generate.md R147, 10_state.md R34: reset in any phase abandons what AG was doing: the reset state, no
response, no entry with a value. That the master's words and the record of responses taken stay is the model's choice (log entry
10; the lists are those of log entries 8 and 9). -/
def Obligations.ResetAbandonsEverything : Prop :=
  ∀ s : State, s.tick.rst = true →
    s.cmdReady = false ∧ s.rspValid = false ∧
    ∃ t, step s = .next t ∧ t.digest = 0 ∧ t.valid = false ∧ t.ecode = 0 ∧ t.gd = none ∧ t.phase = .idle ∧
      t.gseq = none ∧ t.pending = none ∧ (∀ e : Entry, t.entry e = none) ∧ t.taken = s.taken ∧ t.cmds = s.cmds

/-- 10_state.md R34: the reset state. -/
def Obligations.ResetStateIsAsListed : Prop :=
  State.reset.digest = 0x00000000 ∧ State.reset.valid = false ∧ State.reset.ecode = 0x00 ∧
  statusWord State.reset = 0x00000000 ∧ (∀ e : Entry, State.reset.entry e = none) ∧ State.reset.gseq = none ∧
  State.reset.phase = .idle ∧ State.reset.gd = none ∧ State.reset.pending = none

/-- The invariant holds at reset (10_state.md R34). -/
def Obligations.ResetSatisfiesTheInvariant : Prop := State.reset.Inv

/-- 10_state.md R24, R25, R30, 60_exceptions.md R201: every step keeps the invariant: ECODE is 0 to 4, VALID = 1 has a GD behind it, a GEN
in progress has VALID = 0 and GSEQ below 24675, a BUSY AG holds no GEN (10_state.md R32, 42_generate.md R132), and no response ever
carries another error code. -/
def Obligations.EveryStepKeepsTheInvariant : Prop :=
  ∀ s t : State, s.Inv → step s = .next t → t.Inv

/-- 20_memory.md R59, 70_reset_and_hazards.md R240 ("No rule of this spec depends on either value"), 00_scope.md R11: whatever the timing of
acceptance, execution, generation and transfer, AG takes the master's words one after another and ends where the command-level
machine ends, with the same responses. The master presents its words and takes the responses in the end (70_reset_and_hazards.md
R241, `State.MasterGoesOn`). -/
def Obligations.TimingNeverChangesTheResult : Prop :=
  ∀ s : State, s.Inv → s.NoReset → s.MasterGoesOn → s.phase = .idle →
    ∃ n t u, Host.Core.run Sys2Proof.core n s = .next t ∧ commands s.cmds { s with cmds := [] } = .next u ∧
      t.visible = u.visible ∧ t.cmds = [] ∧ t.phase = .idle ∧ t.taken.length = s.taken.length + s.cmds.length

/-- 70_reset_and_hazards.md R232, R235: loading both halves and issuing GEN leaves the tables of the digest loaded, and of nothing
before it; loading one half only leaves those of a digest whose other half is the old one. At the command level (00_scope.md R11). -/
def Obligations.BootSequenceFillsTheTables : Prop :=
  ∀ (lo hi : Half) (s : State),
    (∃ t, commands [encode (.ldlo lo), encode (.ldhi hi), encode .gen] s = .next t ∧ t.valid = true ∧ t.gd = some (hi ++ lo) ∧
      t.Holds (hi ++ lo) ∧ t.ecode = s.ecode ∧ t.taken = s.taken ++ [⟨false, 0⟩, ⟨false, 0⟩, ⟨false, 0⟩]) ∧
    (∃ t, commands [encode (.ldlo lo), encode .gen] s = .next t ∧ t.Holds (s.digest.extractLsb' 16 16 ++ lo))

/-! ### The consumer port -/

/-- 44_table_reads.md R173, 20_memory.md R60: while `tables_valid` = 1 the port reads the entries of `generate(GD)`, whichever
observation it is. -/
def Obligations.PortReadsTheGeneratedTables : Prop :=
  ∀ (s : State) (d : Digest) (obs : Nat), s.tablesValid = true → s.gd = some d →
    (∀ a : BitVec 15, a.extractLsb' 13 2 ≠ (3 : BitVec 2) →
      s.trData obs a = transEntry specMixing d (a.extractLsb' 13 2) (a.extractLsb' 8 5) (a.extractLsb' 0 8)) ∧
    (∀ a : BitVec 7, a.extractLsb' 5 2 ≠ (3 : BitVec 2) →
      s.outData obs a = outEntry specMixing d (a.extractLsb' 5 2) (a.extractLsb' 0 5)) ∧
    (∀ l : BitVec 2, l ≠ 3 → s.initData obs l = initEntry specMixing d l)

/-- 20_memory.md R51: the flat indices, and a flat read is the read of the entry it names. -/
def Obligations.FlatIndexNamesTheEntry : Prop :=
  ∀ (s : State) (l : LayerNo) (st : StateNo) (c : Byte),
    (transIndex l st c).toNat = l.toNat * 8192 + st.toNat * 256 + c.toNat ∧
    (outIndex l st).toNat = l.toNat * 32 + st.toNat ∧
    s.memReadTrans (transIndex l st c) = s.trans l st c ∧ s.memReadOut (outIndex l st) = s.out l st ∧
    (∀ a : BitVec 15, s.memReadTrans a = s.trans (a.extractLsb' 13 2) (a.extractLsb' 8 5) (a.extractLsb' 0 8)) ∧
    (∀ a : BitVec 7, s.memReadOut a = s.out (a.extractLsb' 5 2) (a.extractLsb' 0 5))

/-- 44_table_reads.md R174: `tables_valid` is bit 0 of the STATUS word that RDSTAT responds. -/
def Obligations.TablesValidIsStatusBitZero : Prop :=
  ∀ s : State, (∃ data, exec .rdstat s = .next (s.responding data) ∧ data.getLsbD 0 = s.tablesValid)

/-! ### The mixing functions -/

/-- 40_mixing.md R101, R102: the rotates are rotations by the amount mod the width, and `rotl8` is undone by rotating on by the rest. -/
def Obligations.RotatesAreRotations : Prop :=
  (∀ (b : Byte) (n : Nat), rotl8 b n = b.rotateLeft (n % 8) ∧ rotl8 (rotl8 b n) (8 - n % 8) = b ∧ (n % 8 = 0 → rotl8 b n = b)) ∧
  (∀ (w : Word) (n : Nat), rotl32 w n = w.rotateLeft (n % 32) ∧ (n % 32 = 0 → rotl32 w n = w)) ∧
  (∀ n, Function.Bijective fun b : Byte => rotl8 b n) ∧ (∀ n, Function.Bijective fun w : Word => rotl32 w n)

/-- 40_mixing.md R103, R104: `sbox` as a number (multiply and add mod 256, the rotate by 3 as a product and a quotient, xor); it is
a bijection with the stated inverse and no fixed point. -/
def Obligations.SboxHasItsInverse : Prop :=
  ∀ b : Byte,
    (sbox b).toNat = (((b.toNat * 0xA7 + 0x3B) % 256 * 8 % 256 + (b.toNat * 0xA7 + 0x3B) % 256 / 32) ^^^ 0x5C) ∧
    sboxInv b = (rotl8 (b ^^^ 0x5C) 5 - 0x3B) * 0x17 ∧ sboxInv (sbox b) = b ∧ sbox (sboxInv b) = b ∧ sbox b ≠ b

/-- 40_mixing.md R105, R106: output bit `i` of `scramble` is input bit `(5*i + 3) mod 8`; it has the stated inverse, and 0x00 and 0xFF
are its only fixed points. -/
def Obligations.ScramblePermutesTheBits : Prop :=
  ∀ b : Byte, (∀ i, i < 8 → (scramble b).getLsbD i = b.getLsbD ((5 * i + 3) % 8)) ∧
    (∀ j, j < 8 → (scrambleInv b).getLsbD j = b.getLsbD ((5 * j + 1) % 8)) ∧
    scrambleInv (scramble b) = b ∧ scramble (scrambleInv b) = b ∧ (scramble b = b ↔ b = 0x00 ∨ b = 0xFF)

/-- 40_mixing.md R107: word-obfuscate as a number: the sum mod 2^32, the shifted term that never carries a bit out, and the rotate by 13
as a product and a quotient; with the rule's four values. -/
def Obligations.WordObfuscateAsANumber : Prop :=
  (∀ w : Word,
    (wo w).toNat = ((((w.toNat ^^^ 0x9E3779B9) + (w.toNat &&& 0x7F4A7C15) * 2) % 2 ^ 32) ^^^
      (w.toNat * 2 ^ 13 % 2 ^ 32 + w.toNat / 2 ^ 19)) ∧
    (w.toNat &&& 0x7F4A7C15) * 2 < 2 ^ 32) ∧
  wo 0x00000000 = 0x9E3779B9 ∧ wo 0xFFFFFFFF = 0x9FA2818F ∧ wo 0x80000000 = 0x1E3769B9 ∧ wo 0x12345678 = 0x3ACCD5A7

/-! ### The key hash -/

/-- 41_key_hash.md R121: the hash takes the key's bytes one after another, the first first: one more byte at the end is one more
round at its position. -/
def Obligations.HashAbsorbsBytesInOrder : Prop :=
  ∀ (m : Mixing) (key : List Byte) (b : Byte),
    hashAcc m [] = 0x811C9DC5 ∧
    hashAcc m (key ++ [b]) =
      m.wo ((hashAcc m key ^^^ (m.sbox (m.rotl8 b (key.length % 8))).setWidth 32)
        + BitVec.ofNat 32 (key.length + 1) * 0x01000193) ∧
    hashBytes m key = m.wo (hashAcc m key ^^^ BitVec.ofNat 32 key.length)

/-- 41_key_hash.md R122, R124: exactly the keys longer than 1024 bytes are refused, and a synthesised key, of 16 bytes by
`pick_symbol`, never is. -/
def Obligations.OnlyOverlongKeysAreRefused : Prop :=
  (∀ (m : Mixing) (key : List Byte), (hash m key = none ↔ 1024 < key.length)) ∧
  (∀ (m : Mixing) (h : Word), (synthKey m h).length = 16 ∧
    (∀ i, i < 16 → (synthKey m h)[i]? = some (m.sbox ((m.wo (h + BitVec.ofNat 32 i)).extractLsb' 0 8))) ∧
    ∃ d, hash m (synthKey m h) = some d)

/-! ### The consumers -/

/-- 45_consumers.md R195, R196 and 93_implementation_defined.md U5: the round trip, for every automaton and every invertible combine:
decoding what encoding gave is the plaintext, and the ciphertext is as long as it. -/
def Obligations.DecodingUndoesEncoding : Prop :=
  ∀ (cb : Combine) (a : Automaton) (p : List Byte), p.length ≤ 1024 →
    ∃ ct, encodeWith cb a p = .ok ct ∧ ct.length = p.length ∧ decodeWith cb a ct = .ok p

/-- 45_consumers.md R195, R198, 20_memory.md R60: the round trip through the port. An encoder reads one AG and a decoder another, byte
after byte, while at every byte the tables are valid for one digest: the ciphertext is that of `generate` of the digest, and decoding
gives the plaintext, in whatever observations they read. That INIT is read in AG's state at byte 0 is the model's choice (log entry
19). -/
def Obligations.RoundTripThroughThePort : Prop :=
  ∀ (s u : Nat → State) (d : Digest) (o o' : Nat) (p : List Byte),
    (∀ j, j < p.length → (s j).tablesValid = true ∧ (s j).gd = some d) →
    (∀ j, j < p.length → (u j).tablesValid = true ∧ (u j).gd = some d) → p.length ≤ 1024 →
    ∃ ct, portEncode s o p = .ok ct ∧ encodeString (generate specMixing d) p = .ok ct ∧
      ct.length = p.length ∧ portDecode u o' ct = .ok p

/-- 45_consumers.md R194, R197: exactly the strings longer than 1024 bytes are rejected, by encoder and decoder, and every other string
decodes to one of its length, tampered or not. -/
def Obligations.OnlyOverlongStringsAreRejected : Prop :=
  ∀ (a : Automaton) (x : List Byte),
    (1024 < x.length → encodeString a x = .error Config.consumerReject ∧ decodeString a x = .error Config.consumerReject) ∧
    (x.length ≤ 1024 → (∃ y, encodeString a x = .ok y ∧ y.length = x.length) ∧
      ∃ y, decodeString a x = .ok y ∧ y.length = x.length)

/-- 45_consumers.md R191, R192, R199: one byte through the three layers is the byte xor the three output bytes, each layer moves by the
byte that entered it, the decoder takes the byte back and makes the same moves, and the byte comes out unchanged exactly where
the output bytes xor to 0. -/
def Obligations.CiphertextByteIsTheXorOfTheLayers : Prop :=
  ∀ (a : Automaton) (s0 s1 s2 : StateNo) (v : Byte),
    encodeByte xorCombine a [(0, s0), (1, s1), (2, s2)] v =
      ([(0, a.trans 0 s0 v), (1, a.trans 1 s1 (v ^^^ a.out 0 s0)), (2, a.trans 2 s2 (v ^^^ a.out 0 s0 ^^^ a.out 1 s1))],
        v ^^^ a.out 0 s0 ^^^ a.out 1 s1 ^^^ a.out 2 s2) ∧
    decodeByte xorCombine a [(0, s0), (1, s1), (2, s2)] (encodeByte xorCombine a [(0, s0), (1, s1), (2, s2)] v).2 =
      ((encodeByte xorCombine a [(0, s0), (1, s1), (2, s2)] v).1, v) ∧
    ((encodeByte xorCombine a [(0, s0), (1, s1), (2, s2)] v).2 = v ↔ a.out 0 s0 ^^^ a.out 1 s1 ^^^ a.out 2 s2 = 0)
end

