-- ==== Sys2Proof/Laws/Consumer.lean ====
section
/-! SUPPORT. What a consumer reads through the port: the start states, the numbers of its observations, and its reads while the
tables are not valid (45_consumers.md R192, R193, R198). -/

namespace Sys2Proof.Machine

/-- The three start states (45_consumers.md R192). -/
theorem startStates_eq (a : Automaton) : startStates a = [(0, a.init 0), (1, a.init 1), (2, a.init 2)] := rfl

/-- Within a string no two bytes and no two consumers share an observation. -/
theorem Consumer.obs_inj {c c' : Consumer} {start j j' : Nat} (h : c.obs start j = c'.obs start j') : c = c' ∧ j = j' := by
  cases c <;> cases c' <;> simp only [Consumer.obs] at h <;> first | exact ⟨rfl, by omega⟩ | omega

/-! While `tables_valid` = 0 every read is a free value of its own (00_scope.md R10, 44_table_reads.md R176). -/

theorem State.trData_free {s : State} (h : s.tablesValid = false) (obs : Nat) (a : BitVec 15) :
    s.trData obs a = Config.freeTrans s.draw obs a := by
  have h : s.valid = false := h
  simp [State.trData, h]

theorem State.outData_free {s : State} (h : s.tablesValid = false) (obs : Nat) (a : BitVec 7) :
    s.outData obs a = Config.freeOut s.draw obs a := by
  have h : s.valid = false := h
  simp [State.outData, h]

theorem State.initData_free {s : State} (h : s.tablesValid = false) (obs : Nat) (l : BitVec 2) :
    s.initData obs l = Config.freeInit s.draw obs l := by
  have h : s.valid = false := h
  simp [State.initData, h]

end Sys2Proof.Machine
end

