-- ==== Sys2Proof/Laws/Fields.lean ====
section
/-! SUPPORT. Fields of words as numbers: the words the encoder writes, and the fields and reserved bits the decoder reads
(30_encoding.md R71, R73, R77). -/

namespace Sys2Proof.Laws

/-- A concatenation as a number. -/
theorem toNat_concat {a b : Nat} (x : BitVec a) (y : BitVec b) : (x ++ y).toNat = x.toNat * 2 ^ b + y.toNat := by
  rw [BitVec.toNat_append, ← Nat.shiftLeft_add_eq_or_of_lt y.isLt, Nat.shiftLeft_eq]

theorem wordN_toNat (o : BitVec 4) : (wordN o).toNat = o.toNat * 2 ^ 28 := by
  show (o ++ (0 : BitVec 28)).toNat = _
  rw [toNat_concat]; simp

theorem wordI_toNat (o : BitVec 4) (i : Half) : (wordI o i).toNat = o.toNat * 2 ^ 28 + i.toNat := by
  show ((o ++ (0 : BitVec 12)) ++ i).toNat = _
  rw [toNat_concat, toNat_concat]; simp; omega

theorem wordT_toNat (o : BitVec 4) (l : LayerNo) (s : StateNo) (c : Byte) :
    (wordT o l s c).toNat = o.toNat * 2 ^ 28 + l.toNat * 2 ^ 26 + s.toNat * 2 ^ 21 + c.toNat * 2 ^ 13 := by
  show ((((o ++ l) ++ s) ++ c) ++ (0 : BitVec 13)).toNat = _
  rw [toNat_concat, toNat_concat, toNat_concat, toNat_concat]; simp; omega

theorem wordO_toNat (o : BitVec 4) (l : LayerNo) (s : StateNo) :
    (wordO o l s).toNat = o.toNat * 2 ^ 28 + l.toNat * 2 ^ 26 + s.toNat * 2 ^ 21 := by
  show (((o ++ l) ++ s) ++ (0 : BitVec 21)).toNat = _
  rw [toNat_concat, toNat_concat, toNat_concat]; simp; omega

theorem wordY_toNat (o : BitVec 4) (l : LayerNo) : (wordY o l).toNat = o.toNat * 2 ^ 28 + l.toNat * 2 ^ 26 := by
  show ((o ++ l) ++ (0 : BitVec 26)).toNat = _
  rw [toNat_concat, toNat_concat]; simp; omega

/-- A field as a number. -/
theorem extract_toNat {w : Nat} (x : BitVec w) (lo n : Nat) : (x.extractLsb' lo n).toNat = x.toNat / 2 ^ lo % 2 ^ n := by
  rw [BitVec.extractLsb'_toNat, Nat.shiftRight_eq_div_pow]

theorem opcField_toNat (w : Word) : (opcField w).toNat = w.toNat / 2 ^ 28 % 2 ^ 4 := extract_toNat w 28 4
theorem layerField_toNat (w : Word) : (layerField w).toNat = w.toNat / 2 ^ 26 % 2 ^ 2 := extract_toNat w 26 2
theorem stateField_toNat (w : Word) : (stateField w).toNat = w.toNat / 2 ^ 21 % 2 ^ 5 := extract_toNat w 21 5
theorem symField_toNat (w : Word) : (symField w).toNat = w.toNat / 2 ^ 13 % 2 ^ 8 := extract_toNat w 13 8
theorem immField_toNat (w : Word) : (immField w).toNat = w.toNat / 2 ^ 0 % 2 ^ 16 := extract_toNat w 0 16

/-- Bit `i` of a mask of `n` ones from bit `lo` on. -/
theorem ones_bit (lo n i : Nat) (hi : i < 32) :
    (BitVec.ofNat 32 ((2 ^ n - 1) <<< lo)).getLsbD i = (decide (lo ≤ i) && decide (i - lo < n)) := by
  rw [BitVec.getLsbD_ofNat, Nat.testBit_shiftLeft, Nat.testBit_two_pow_sub_one]
  simp [hi]

/-- A mask of `n` ones from bit `lo` on keeps nothing exactly where that field is 0. -/
theorem and_ones_eq_zero (w : Word) (lo n : Nat) (h : lo + n ≤ 32) :
    w &&& (BitVec.ofNat 32 ((2 ^ n - 1) <<< lo)) = 0 ↔ w.extractLsb' lo n = 0 := by
  constructor
  · intro e
    apply BitVec.eq_of_getLsbD_eq
    intro i hi
    have hb : (w &&& (BitVec.ofNat 32 ((2 ^ n - 1) <<< lo))).getLsbD (lo + i) = false := by rw [e]; simp
    rw [BitVec.getLsbD_and, ones_bit lo n (lo + i) (by omega)] at hb
    simpa [BitVec.getLsbD_extractLsb', hi] using hb
  · intro e
    apply BitVec.eq_of_getLsbD_eq
    intro i hi
    rw [BitVec.getLsbD_and, ones_bit lo n i hi]
    by_cases hn : lo ≤ i ∧ i - lo < n
    · have hb : (w.extractLsb' lo n).getLsbD (i - lo) = false := by rw [e]; simp
      rw [BitVec.getLsbD_extractLsb', Nat.add_sub_cancel' hn.1] at hb
      simp [hn.2] at hb
      simp [hb]
    · have : (decide (lo ≤ i) && decide (i - lo < n)) = false := by simpa using hn
      simp [this]

end Sys2Proof.Laws
end

