-- ==== Sys2Proof/Laws/State.lean ====
section
/-! SUPPORT. One lemma per field per update of State, each true by rfl: no later proof unfolds a record update. -/

namespace Sys2Proof.Machine

variable (s : State)

/-! `State.respond` -/

@[simp] theorem State.respond_digest (e : Bool) (d : Word) : (s.respond e d).digest = s.digest := rfl
@[simp] theorem State.respond_valid (e : Bool) (d : Word) : (s.respond e d).valid = s.valid := rfl
@[simp] theorem State.respond_ecode (e : Bool) (d : Word) : (s.respond e d).ecode = s.ecode := rfl
@[simp] theorem State.respond_gd (e : Bool) (d : Word) : (s.respond e d).gd = s.gd := rfl
@[simp] theorem State.respond_phase (e : Bool) (d : Word) : (s.respond e d).phase = .respond ⟨e, d⟩ := rfl
@[simp] theorem State.respond_cmds (e : Bool) (d : Word) : (s.respond e d).cmds = s.cmds := rfl
@[simp] theorem State.respond_sched (e : Bool) (d : Word) : (s.respond e d).sched = s.sched := rfl
@[simp] theorem State.respond_rest (e : Bool) (d : Word) : (s.respond e d).rest = s.rest := rfl
@[simp] theorem State.respond_taken (e : Bool) (d : Word) : (s.respond e d).taken = s.taken := rfl
@[simp] theorem State.respond_draw (e : Bool) (d : Word) : (s.respond e d).draw = s.draw := rfl

/-! `State.succeed` -/

@[simp] theorem State.succeed_digest (d : Word) : (s.succeed d).digest = s.digest := rfl
@[simp] theorem State.succeed_valid (d : Word) : (s.succeed d).valid = s.valid := rfl
@[simp] theorem State.succeed_ecode (d : Word) : (s.succeed d).ecode = s.ecode := rfl
@[simp] theorem State.succeed_gd (d : Word) : (s.succeed d).gd = s.gd := rfl
@[simp] theorem State.succeed_phase (d : Word) : (s.succeed d).phase = .respond ⟨false, d⟩ := rfl
@[simp] theorem State.succeed_cmds (d : Word) : (s.succeed d).cmds = s.cmds := rfl
@[simp] theorem State.succeed_sched (d : Word) : (s.succeed d).sched = s.sched := rfl
@[simp] theorem State.succeed_rest (d : Word) : (s.succeed d).rest = s.rest := rfl
@[simp] theorem State.succeed_taken (d : Word) : (s.succeed d).taken = s.taken := rfl
@[simp] theorem State.succeed_draw (d : Word) : (s.succeed d).draw = s.draw := rfl

/-! `State.raiseError` -/

@[simp] theorem State.raiseError_digest (e : ErrorCode) : (s.raiseError e).digest = s.digest := rfl
@[simp] theorem State.raiseError_valid (e : ErrorCode) : (s.raiseError e).valid = s.valid := rfl
@[simp] theorem State.raiseError_ecode (e : ErrorCode) : (s.raiseError e).ecode = recordedCode s.ecode e := rfl
@[simp] theorem State.raiseError_gd (e : ErrorCode) : (s.raiseError e).gd = s.gd := rfl
@[simp] theorem State.raiseError_phase (e : ErrorCode) : (s.raiseError e).phase = .respond ⟨true, zextByte e.code⟩ := rfl
@[simp] theorem State.raiseError_cmds (e : ErrorCode) : (s.raiseError e).cmds = s.cmds := rfl
@[simp] theorem State.raiseError_sched (e : ErrorCode) : (s.raiseError e).sched = s.sched := rfl
@[simp] theorem State.raiseError_rest (e : ErrorCode) : (s.raiseError e).rest = s.rest := rfl
@[simp] theorem State.raiseError_taken (e : ErrorCode) : (s.raiseError e).taken = s.taken := rfl
@[simp] theorem State.raiseError_draw (e : ErrorCode) : (s.raiseError e).draw = s.draw := rfl

/-! `State.startGen` -/

@[simp] theorem State.startGen_digest : (s.startGen).digest = s.digest := rfl
@[simp] theorem State.startGen_valid : (s.startGen).valid = false := rfl
@[simp] theorem State.startGen_ecode : (s.startGen).ecode = s.ecode := rfl
@[simp] theorem State.startGen_gd : (s.startGen).gd = s.gd := rfl
@[simp] theorem State.startGen_phase : (s.startGen).phase = .generating 0 := rfl
@[simp] theorem State.startGen_cmds : (s.startGen).cmds = s.cmds := rfl
@[simp] theorem State.startGen_sched : (s.startGen).sched = s.sched := rfl
@[simp] theorem State.startGen_rest : (s.startGen).rest = s.rest := rfl
@[simp] theorem State.startGen_taken : (s.startGen).taken = s.taken := rfl
@[simp] theorem State.startGen_draw : (s.startGen).draw = s.draw := rfl

/-! `State.finishGen` -/

@[simp] theorem State.finishGen_digest : (s.finishGen).digest = s.digest := rfl
@[simp] theorem State.finishGen_valid : (s.finishGen).valid = true := rfl
@[simp] theorem State.finishGen_ecode : (s.finishGen).ecode = s.ecode := rfl
@[simp] theorem State.finishGen_gd : (s.finishGen).gd = some s.digest := rfl
@[simp] theorem State.finishGen_phase : (s.finishGen).phase = .respond ⟨false, 0⟩ := rfl
@[simp] theorem State.finishGen_cmds : (s.finishGen).cmds = s.cmds := rfl
@[simp] theorem State.finishGen_sched : (s.finishGen).sched = s.sched := rfl
@[simp] theorem State.finishGen_rest : (s.finishGen).rest = s.rest := rfl
@[simp] theorem State.finishGen_taken : (s.finishGen).taken = s.taken := rfl
@[simp] theorem State.finishGen_draw : (s.finishGen).draw = s.draw := rfl

/-! `State.resetCore` -/

@[simp] theorem State.resetCore_digest : (s.resetCore).digest = 0 := rfl
@[simp] theorem State.resetCore_valid : (s.resetCore).valid = false := rfl
@[simp] theorem State.resetCore_ecode : (s.resetCore).ecode = 0 := rfl
@[simp] theorem State.resetCore_gd : (s.resetCore).gd = none := rfl
@[simp] theorem State.resetCore_phase : (s.resetCore).phase = .idle := rfl
@[simp] theorem State.resetCore_cmds : (s.resetCore).cmds = s.cmds := rfl
@[simp] theorem State.resetCore_sched : (s.resetCore).sched = s.sched := rfl
@[simp] theorem State.resetCore_rest : (s.resetCore).rest = s.rest := rfl
@[simp] theorem State.resetCore_taken : (s.resetCore).taken = s.taken := rfl
@[simp] theorem State.resetCore_draw : (s.resetCore).draw = s.draw := rfl

/-! `State.transfer` -/

@[simp] theorem State.transfer_digest (r : Response) : (s.transfer r).digest = s.digest := rfl
@[simp] theorem State.transfer_valid (r : Response) : (s.transfer r).valid = s.valid := rfl
@[simp] theorem State.transfer_ecode (r : Response) : (s.transfer r).ecode = s.ecode := rfl
@[simp] theorem State.transfer_gd (r : Response) : (s.transfer r).gd = s.gd := rfl
@[simp] theorem State.transfer_phase (r : Response) : (s.transfer r).phase = .idle := rfl
@[simp] theorem State.transfer_cmds (r : Response) : (s.transfer r).cmds = s.cmds := rfl
@[simp] theorem State.transfer_sched (r : Response) : (s.transfer r).sched = s.sched := rfl
@[simp] theorem State.transfer_rest (r : Response) : (s.transfer r).rest = s.rest := rfl
@[simp] theorem State.transfer_taken (r : Response) : (s.transfer r).taken = s.taken ++ [r] := rfl
@[simp] theorem State.transfer_draw (r : Response) : (s.transfer r).draw = s.draw := rfl

/-! `State.advanceTick` -/

@[simp] theorem State.advanceTick_digest : (s.advanceTick).digest = s.digest := rfl
@[simp] theorem State.advanceTick_valid : (s.advanceTick).valid = s.valid := rfl
@[simp] theorem State.advanceTick_ecode : (s.advanceTick).ecode = s.ecode := rfl
@[simp] theorem State.advanceTick_gd : (s.advanceTick).gd = s.gd := rfl
@[simp] theorem State.advanceTick_phase : (s.advanceTick).phase = s.phase := rfl
@[simp] theorem State.advanceTick_cmds : (s.advanceTick).cmds = s.cmds := rfl
@[simp] theorem State.advanceTick_sched : (s.advanceTick).sched = s.sched.tail := rfl
@[simp] theorem State.advanceTick_rest : (s.advanceTick).rest = s.rest := rfl
@[simp] theorem State.advanceTick_taken : (s.advanceTick).taken = s.taken := rfl
@[simp] theorem State.advanceTick_draw : (s.advanceTick).draw = s.draw + 1 := rfl

/-! `State.accept` -/

@[simp] theorem State.accept_digest (w : Word) : (s.accept w).digest = s.digest := rfl
@[simp] theorem State.accept_valid (w : Word) : (s.accept w).valid = s.valid := rfl
@[simp] theorem State.accept_ecode (w : Word) : (s.accept w).ecode = s.ecode := rfl
@[simp] theorem State.accept_gd (w : Word) : (s.accept w).gd = s.gd := rfl
@[simp] theorem State.accept_phase (w : Word) : (s.accept w).phase = .busy w := rfl
@[simp] theorem State.accept_cmds (w : Word) : (s.accept w).cmds = s.cmds.tail := rfl
@[simp] theorem State.accept_sched (w : Word) : (s.accept w).sched = s.sched := rfl
@[simp] theorem State.accept_rest (w : Word) : (s.accept w).rest = s.rest := rfl
@[simp] theorem State.accept_taken (w : Word) : (s.accept w).taken = s.taken := rfl
@[simp] theorem State.accept_draw (w : Word) : (s.accept w).draw = s.draw := rfl

/-! `State.placeWord` -/

@[simp] theorem State.placeWord_digest (w : Word) : (s.placeWord w).digest = s.digest := rfl
@[simp] theorem State.placeWord_valid (w : Word) : (s.placeWord w).valid = s.valid := rfl
@[simp] theorem State.placeWord_ecode (w : Word) : (s.placeWord w).ecode = s.ecode := rfl
@[simp] theorem State.placeWord_gd (w : Word) : (s.placeWord w).gd = s.gd := rfl
@[simp] theorem State.placeWord_phase (w : Word) : (s.placeWord w).phase = .idle := rfl
@[simp] theorem State.placeWord_cmds (w : Word) : (s.placeWord w).cmds = w :: s.cmds := rfl
@[simp] theorem State.placeWord_sched (w : Word) : (s.placeWord w).sched = {} :: s.sched := rfl
@[simp] theorem State.placeWord_rest (w : Word) : (s.placeWord w).rest = s.rest := rfl
@[simp] theorem State.placeWord_taken (w : Word) : (s.placeWord w).taken = s.taken := rfl
@[simp] theorem State.placeWord_draw (w : Word) : (s.placeWord w).draw = s.draw := rfl

/-! `State.begin` -/

@[simp] theorem State.begin_digest (w : Word) : (s.begin w).digest = s.digest := rfl
@[simp] theorem State.begin_valid (w : Word) : (s.begin w).valid = s.valid := rfl
@[simp] theorem State.begin_ecode (w : Word) : (s.begin w).ecode = s.ecode := rfl
@[simp] theorem State.begin_gd (w : Word) : (s.begin w).gd = s.gd := rfl
@[simp] theorem State.begin_phase (w : Word) : (s.begin w).phase = .busy w := rfl
@[simp] theorem State.begin_cmds (w : Word) : (s.begin w).cmds = s.cmds := rfl
@[simp] theorem State.begin_sched (w : Word) : (s.begin w).sched = s.sched := rfl
@[simp] theorem State.begin_rest (w : Word) : (s.begin w).rest = s.rest := rfl
@[simp] theorem State.begin_taken (w : Word) : (s.begin w).taken = s.taken := rfl
@[simp] theorem State.begin_draw (w : Word) : (s.begin w).draw = s.draw + 1 := rfl

/-! `State.endedInError` -/

@[simp] theorem State.endedInError_digest (c : Byte) : (s.endedInError c).digest = s.digest := rfl
@[simp] theorem State.endedInError_valid (c : Byte) : (s.endedInError c).valid = s.valid := rfl
@[simp] theorem State.endedInError_ecode (c : Byte) : (s.endedInError c).ecode = if s.ecode = 0 then c else s.ecode := rfl
@[simp] theorem State.endedInError_gd (c : Byte) : (s.endedInError c).gd = s.gd := rfl
@[simp] theorem State.endedInError_phase (c : Byte) : (s.endedInError c).phase = .respond ⟨true, c.setWidth 32⟩ := rfl
@[simp] theorem State.endedInError_cmds (c : Byte) : (s.endedInError c).cmds = s.cmds := rfl
@[simp] theorem State.endedInError_sched (c : Byte) : (s.endedInError c).sched = s.sched := rfl
@[simp] theorem State.endedInError_rest (c : Byte) : (s.endedInError c).rest = s.rest := rfl
@[simp] theorem State.endedInError_taken (c : Byte) : (s.endedInError c).taken = s.taken := rfl
@[simp] theorem State.endedInError_draw (c : Byte) : (s.endedInError c).draw = s.draw := rfl

/-! `State.responding` -/

@[simp] theorem State.responding_digest (d : Word) : (s.responding d).digest = s.digest := rfl
@[simp] theorem State.responding_valid (d : Word) : (s.responding d).valid = s.valid := rfl
@[simp] theorem State.responding_ecode (d : Word) : (s.responding d).ecode = s.ecode := rfl
@[simp] theorem State.responding_gd (d : Word) : (s.responding d).gd = s.gd := rfl
@[simp] theorem State.responding_phase (d : Word) : (s.responding d).phase = .respond ⟨false, d⟩ := rfl
@[simp] theorem State.responding_cmds (d : Word) : (s.responding d).cmds = s.cmds := rfl
@[simp] theorem State.responding_sched (d : Word) : (s.responding d).sched = s.sched := rfl
@[simp] theorem State.responding_rest (d : Word) : (s.responding d).rest = s.rest := rfl
@[simp] theorem State.responding_taken (d : Word) : (s.responding d).taken = s.taken := rfl
@[simp] theorem State.responding_draw (d : Word) : (s.responding d).draw = s.draw := rfl

end Sys2Proof.Machine
end

