-- ==== Sys2Proof/Laws/Tables.lean ====
section
/-! SUPPORT. What the table views say in each kind of state (10_state.md R26 to R29, R34; 42_generate.md R130, R144). -/

namespace Sys2Proof.Machine

/-- The number of internal steps (10_state.md R30). -/
theorem genSteps_eq : Config.genSteps = 24675 := rfl

/-- The steps of the rows (42_generate.md R144). -/
theorem allRowSteps_eq : Config.allRowSteps = 24672 := rfl

/-- The base of a row as a number (42_generate.md R144). -/
theorem rowBase_eq (l : LayerNo) (s : StateNo) : rowBase l s = (l.toNat * 32 + s.toNat) * 257 := rfl

/-- The step numbers of the entries as numbers (42_generate.md R144). -/
theorem Entry.stepNo_eq (e : Entry) : e.stepNo =
    match e with
    | .trans l s c => (l.toNat * 32 + s.toNat) * 257 + 1 + c.toNat
    | .out l s => (l.toNat * 32 + s.toNat) * 257
    | .init l => 24672 + l.toNat := by
  cases e <;> rfl

/-- The entry of an internal step, with the parameters as numbers (42_generate.md R144). -/
theorem entryAt_eq (k : Nat) : entryAt k =
    if k < 24672 then
      some (if k % 257 = 0 then .out (.ofNat 2 (k / 257 / 32)) (.ofNat 5 (k / 257 % 32))
        else .trans (.ofNat 2 (k / 257 / 32)) (.ofNat 5 (k / 257 % 32)) (.ofNat 8 (k % 257 - 1)))
    else if k < 24675 then some (.init (.ofNat 2 (k - 24672))) else none := rfl

/-- The layer number that names no layer (30_encoding.md R74). -/
theorem noLayer_eq : noLayer = 3 := rfl

/-- An entry exists exactly where its layer field is below 3 (20_memory.md R50). -/
theorem Entry.layer_lt {e : Entry} (h : e.populated = true) : e.layer.toNat < 3 := by
  have h3 : e.layer ≠ noLayer := by simpa [Entry.populated] using h
  have h4 : e.layer.toNat ≠ 3 := fun h' => h3 (BitVec.eq_of_toNat_eq h')
  have := e.layer.isLt
  omega

/-- With VALID = 1 every entry comes from GD (10_state.md R29). -/
theorem State.tableSeed_valid {s : State} (h : s.valid = true) (n : Nat) : s.tableSeed n = s.gd := by
  simp [State.tableSeed, h]

/-- During a GEN exactly the entries of the steps made come from DIGEST (42_generate.md R130). -/
theorem State.tableSeed_generating {s : State} {k : BitVec 15} (hv : s.valid = false) (h : s.phase = .generating k) (n : Nat) :
    s.tableSeed n = if n < k.toNat then some s.digest else none := by
  simp [State.tableSeed, hv, h]

/-- Otherwise no entry holds a value (10_state.md R34). -/
theorem State.tableSeed_none {s : State} (hv : s.valid = false) (h : s.gseq = none) (n : Nat) : s.tableSeed n = none := by
  unfold State.gseq at h
  unfold State.tableSeed
  cases hp : s.phase <;> simp_all

/-- Every view is the generated value from the entry's seed, where the entry exists. -/
theorem State.entry_eq (s : State) (e : Entry) :
    s.entry e = if e.populated then (s.tableSeed e.stepNo).map fun d => entryValue specMixing d e else none := by
  cases e with
  | trans l st c =>
    by_cases hl : l = noLayer
    · simp [State.entry, State.trans, Entry.populated, Entry.layer, hl]
    · cases h : s.tableSeed (Entry.trans l st c).stepNo <;>
        simp [State.entry, State.trans, Entry.populated, Entry.layer, hl, h, entryValue]
  | out l st =>
    by_cases hl : l = noLayer
    · simp [State.entry, State.out, Entry.populated, Entry.layer, hl]
    · cases h : s.tableSeed (Entry.out l st).stepNo <;>
        simp [State.entry, State.out, Entry.populated, Entry.layer, hl, h, entryValue]
  | init l =>
    by_cases hl : l = noLayer
    · simp [State.entry, State.init, Entry.populated, Entry.layer, hl]
    · cases h : s.tableSeed (Entry.init l).stepNo <;>
        simp [State.entry, State.init, Entry.populated, Entry.layer, hl, h, entryValue]

/-- A transition entry with VALID = 1 (42_generate.md R136). -/
theorem State.trans_valid {s : State} {d : Digest} (hv : s.valid = true) (hg : s.gd = some d) {l : LayerNo} (hl : l ≠ noLayer)
    (st : StateNo) (c : Byte) : s.trans l st c = some (transEntry specMixing d l st c) := by
  simp [State.trans, State.tableSeed_valid hv, hg, hl]

/-- An output entry with VALID = 1 (42_generate.md R137). -/
theorem State.out_valid {s : State} {d : Digest} (hv : s.valid = true) (hg : s.gd = some d) {l : LayerNo} (hl : l ≠ noLayer)
    (st : StateNo) : s.out l st = some (outEntry specMixing d l st) := by
  simp [State.out, State.tableSeed_valid hv, hg, hl]

/-- An initial state with VALID = 1 (42_generate.md R138). -/
theorem State.init_valid {s : State} {d : Digest} (hv : s.valid = true) (hg : s.gd = some d) {l : LayerNo} (hl : l ≠ noLayer) :
    s.init l = some (initEntry specMixing d l) := by
  simp [State.init, State.tableSeed_valid hv, hg, hl]

/-- What the entries hold depends only on VALID, GD, PHASE and DIGEST. -/
theorem State.entry_congr {s t : State} (hv : t.valid = s.valid) (hg : t.gd = s.gd) (hp : t.phase = s.phase)
    (hd : t.digest = s.digest) (e : Entry) : t.entry e = s.entry e := by
  simp [State.entry_eq, State.tableSeed, hv, hg, hp, hd]

/-- An entry that exists is written by a step 0 to 24674 (42_generate.md R144). -/
theorem Entry.stepNo_lt {e : Entry} (h : e.populated = true) : e.stepNo < Config.genSteps := by
  have hl := Entry.layer_lt h
  cases e with
  | trans l s c =>
    have hs := s.isLt; have hc := c.isLt
    simp only [Entry.layer] at hl
    simp only [Entry.stepNo_eq, genSteps_eq]; omega
  | out l s =>
    have hs := s.isLt
    simp only [Entry.layer] at hl
    simp only [Entry.stepNo_eq, genSteps_eq]; omega
  | init l =>
    simp only [Entry.layer] at hl
    simp only [Entry.stepNo_eq, genSteps_eq]; omega

end Sys2Proof.Machine
end

