-- ==== Sys2Proof/Laws/Ops.lean ====
section
/-! SUPPORT. One lemma per shared operation that says once everything it can do; the later proofs cite these. -/

namespace Sys2Proof.Machine

/-- Ending in error, written out (60_exceptions.md R203 to R205). -/
theorem State.raiseError_eq (s : State) (e : ErrorCode) : s.raiseError e = s.endedInError e.code := rfl

/-- Ending well, written out (30_encoding.md R72). -/
theorem State.succeed_eq (s : State) (d : Word) : s.succeed d = s.responding d := rfl

/-- The code of an error is one of the four (60_exceptions.md R201). -/
theorem ErrorCode.code_cases (e : ErrorCode) : e.code = 1 ∨ e.code = 2 ∨ e.code = 3 ∨ e.code = 4 := by
  cases e <;> simp [ErrorCode.code]

/-- What a table read can do: LAYER_RANGE, NOT_VALID, or the entry (30_encoding.md R78). -/
theorem tableRead_cases {l : LayerNo} {read : State → Word} {s t : State} (h : tableRead l read s = .next t) :
    (l = noLayer ∧ t = s.endedInError 3) ∨ (l ≠ noLayer ∧ s.valid = false ∧ t = s.endedInError 4) ∨
    (l ≠ noLayer ∧ s.valid = true ∧ t = s.responding (read s)) := by
  unfold tableRead at h
  split at h
  · cases h; exact .inl ⟨‹_›, rfl⟩
  · split at h
    · cases h; exact .inr (.inl ⟨‹_›, ‹_›, rfl⟩)
    · rename_i hv
      cases h; exact .inr (.inr ⟨‹_›, by simpa using hv, rfl⟩)

/-- A table read always ends (60_exceptions.md R200). -/
theorem tableRead_next (l : LayerNo) (read : State → Word) (s : State) : ∃ t, tableRead l read s = .next t := by
  unfold tableRead; split
  · exact ⟨_, rfl⟩
  · split <;> exact ⟨_, rfl⟩

/-- What the sequencer can do: move on by the steps of the tick, or complete the GEN (10_state.md R30). -/
theorem State.advanceGen_cases (s : State) (k : BitVec 15) (n : Nat) :
    (k.toNat + max 1 n < Config.genSteps ∧ s.advanceGen k n = { s with phase := .generating (BitVec.ofNat 15 (k.toNat + max 1 n)) }) ∨
    (Config.genSteps ≤ k.toNat + max 1 n ∧ s.advanceGen k n = s.finishGen) := by
  by_cases h : k.toNat + max 1 n < Config.genSteps
  · exact .inl ⟨h, by unfold State.advanceGen; rw [if_pos h]⟩
  · exact .inr ⟨by omega, by unfold State.advanceGen; rw [if_neg h]⟩

/-- The command read of a transition entry that holds a value is that value (44_table_reads.md R170). -/
theorem State.readTrans_valid {s : State} {d : Digest} (hv : s.valid = true) (hg : s.gd = some d) {l : LayerNo} (hl : l ≠ noLayer)
    (st : StateNo) (c : Byte) : s.readTrans l st c = transEntry specMixing d l st c := by
  simp [State.readTrans, State.trans_valid hv hg hl]

theorem State.readOut_valid {s : State} {d : Digest} (hv : s.valid = true) (hg : s.gd = some d) {l : LayerNo} (hl : l ≠ noLayer)
    (st : StateNo) : s.readOut l st = outEntry specMixing d l st := by
  simp [State.readOut, State.out_valid hv hg hl]

theorem State.readInit_valid {s : State} {d : Digest} (hv : s.valid = true) (hg : s.gd = some d) {l : LayerNo} (hl : l ≠ noLayer) :
    s.readInit l = initEntry specMixing d l := by
  simp [State.readInit, State.init_valid hv hg hl]

end Sys2Proof.Machine
end

