-- ==== Sys2Proof/Laws/PerInstr.lean ====
section
/-! SUPPORT. The per-instruction family RowMatch: the encoded word of a command is selected by its row of the opcode map
(30_encoding.md R75), so its opcode is right and its reserved bits are 0. -/

namespace Sys2Proof.Laws

/-- Every command is well formed: its fields have the widths of the encoding (30_encoding.md R73). -/
theorem Instr.wellFormed_eq_true (i : Instr) : i.wellFormed = true := by
  cases i with
  | nop => rfl
  | ldlo imm => simpa [Instr.wellFormed, Instr.toSource, Source.wellFormed] using Nat.le_of_lt_succ imm.isLt
  | ldhi imm => simpa [Instr.wellFormed, Instr.toSource, Source.wellFormed] using Nat.le_of_lt_succ imm.isLt
  | gen => rfl
  | rdtr l s c =>
    have hl := l.isLt; have hs := s.isLt; have hc := c.isLt
    simp [Instr.wellFormed, Instr.toSource, Source.wellFormed]; omega
  | rdout l s =>
    have hl := l.isLt; have hs := s.isLt
    simp [Instr.wellFormed, Instr.toSource, Source.wellFormed]; omega
  | rdinit l => simpa [Instr.wellFormed, Instr.toSource, Source.wellFormed] using Nat.le_of_lt_succ l.isLt
  | rdstat => rfl
  | rddig => rfl
  | clrerr => rfl

/-! The mask of a row, format by format: what it keeps of a word of that format. -/

theorem and_fifteen (opc : BitVec 4) : opc &&& 15#4 = opc := BitVec.and_allOnes

theorem wordI_masked (opc : BitVec 4) (imm : Half) : wordI opc imm &&& 0xFFFF0000 = wordI opc 0 := by
  have h : (0xFFFF0000 : Word) = BitVec.allOnes 4 ++ (0xFFF : BitVec 12) ++ (0 : BitVec 16) := by decide
  rw [h, wordI, BitVec.and_append, BitVec.and_append]
  simp [wordI, and_fifteen]

theorem wordT_masked (opc : BitVec 4) (l : LayerNo) (s : StateNo) (c : Byte) :
    wordT opc l s c &&& 0xF0001FFF = wordT opc 0 0 0 := by
  have h : (0xF0001FFF : Word) =
      BitVec.allOnes 4 ++ (0 : BitVec 2) ++ (0 : BitVec 5) ++ (0 : BitVec 8) ++ (0x1FFF : BitVec 13) := by decide
  rw [h, wordT, BitVec.and_append, BitVec.and_append, BitVec.and_append, BitVec.and_append]
  simp [wordT, and_fifteen]

theorem wordO_masked (opc : BitVec 4) (l : LayerNo) (s : StateNo) : wordO opc l s &&& 0xF01FFFFF = wordO opc 0 0 := by
  have h : (0xF01FFFFF : Word) =
      BitVec.allOnes 4 ++ (0 : BitVec 2) ++ (0 : BitVec 5) ++ (0x1FFFFF : BitVec 21) := by decide
  rw [h, wordO, BitVec.and_append, BitVec.and_append, BitVec.and_append]
  simp [wordO, and_fifteen]

theorem wordY_masked (opc : BitVec 4) (l : LayerNo) : wordY opc l &&& 0xF3FFFFFF = wordY opc 0 := by
  have h : (0xF3FFFFFF : Word) = BitVec.allOnes 4 ++ (0 : BitVec 2) ++ (0x3FFFFFF : BitVec 26) := by decide
  rw [h, wordY, BitVec.and_append, BitVec.and_append]
  simp [wordY, and_fifteen]

/-- A family: the command's row selects its word. -/
def RowMatch.Statement (i : Instr) : Prop := i.row.selects (encode i) = true

theorem RowMatch.nop : RowMatch.Statement .nop := by unfold RowMatch.Statement; decide

theorem RowMatch.ldlo (imm : Half) : RowMatch.Statement (.ldlo imm) := by
  simp only [RowMatch.Statement, OpRow.selects, Instr.row, encode, beq_iff_eq, wordI_masked]; decide

theorem RowMatch.ldhi (imm : Half) : RowMatch.Statement (.ldhi imm) := by
  simp only [RowMatch.Statement, OpRow.selects, Instr.row, encode, beq_iff_eq, wordI_masked]; decide

theorem RowMatch.gen : RowMatch.Statement .gen := by unfold RowMatch.Statement; decide

theorem RowMatch.rdtr (l : LayerNo) (s : StateNo) (c : Byte) : RowMatch.Statement (.rdtr l s c) := by
  simp only [RowMatch.Statement, OpRow.selects, Instr.row, encode, beq_iff_eq, wordT_masked]; decide

theorem RowMatch.rdout (l : LayerNo) (s : StateNo) : RowMatch.Statement (.rdout l s) := by
  simp only [RowMatch.Statement, OpRow.selects, Instr.row, encode, beq_iff_eq, wordO_masked]; decide

theorem RowMatch.rdinit (l : LayerNo) : RowMatch.Statement (.rdinit l) := by
  simp only [RowMatch.Statement, OpRow.selects, Instr.row, encode, beq_iff_eq, wordY_masked]; decide

theorem RowMatch.rdstat : RowMatch.Statement .rdstat := by unfold RowMatch.Statement; decide

theorem RowMatch.rddig : RowMatch.Statement .rddig := by unfold RowMatch.Statement; decide

theorem RowMatch.clrerr : RowMatch.Statement .clrerr := by unfold RowMatch.Statement; decide

end Sys2Proof.Laws
end

