-- ==== Sys2Proof/Laws/Step.lean ====
section
/-! SUPPORT. What a command and a step can do, said once: later proofs take these cases and unfold nothing. -/

namespace Sys2Proof.Machine

/-- Every way a command can end: in error, with a response and at most one register written, or as phase 1 of a GEN. -/
theorem exec_cases {i : Instr} {s t : State} (h : exec i s = .next t) :
    (∃ c : Byte, (c = 3 ∨ c = 4) ∧ t = s.endedInError c) ∨
    (∃ d, t = s.responding d ∧ i ≠ .gen ∧ i ≠ .clrerr ∧ (∀ m, i ≠ .ldlo m) ∧ (∀ m, i ≠ .ldhi m)) ∨
    (∃ m, i = .ldlo m ∧ t = { s with digest := withLowHalf s.digest m }.responding 0) ∨
    (∃ m, i = .ldhi m ∧ t = { s with digest := withHighHalf s.digest m }.responding 0) ∨
    (i = .clrerr ∧ t = { s with ecode := 0 }.responding 0) ∨
    (i = .gen ∧ t = s.startGen) := by
  cases i with
  | nop => cases h; exact .inr (.inl ⟨0, rfl, by simp⟩)
  | ldlo m => cases h; exact .inr (.inr (.inl ⟨m, rfl, rfl⟩))
  | ldhi m => cases h; exact .inr (.inr (.inr (.inl ⟨m, rfl, rfl⟩)))
  | gen => cases h; exact .inr (.inr (.inr (.inr (.inr ⟨rfl, rfl⟩))))
  | rdtr l st c =>
    have h : tableRead l (fun s => zextState (s.readTrans l st c)) s = .next t := h
    obtain ⟨_, rfl⟩ | ⟨_, _, rfl⟩ | ⟨_, _, rfl⟩ := tableRead_cases h
    · exact .inl ⟨3, by simp, rfl⟩
    · exact .inl ⟨4, by simp, rfl⟩
    · exact .inr (.inl ⟨_, rfl, by simp⟩)
  | rdout l st =>
    have h : tableRead l (fun s => zextByte (s.readOut l st)) s = .next t := h
    obtain ⟨_, rfl⟩ | ⟨_, _, rfl⟩ | ⟨_, _, rfl⟩ := tableRead_cases h
    · exact .inl ⟨3, by simp, rfl⟩
    · exact .inl ⟨4, by simp, rfl⟩
    · exact .inr (.inl ⟨_, rfl, by simp⟩)
  | rdinit l =>
    have h : tableRead l (fun s => zextState (s.readInit l)) s = .next t := h
    obtain ⟨_, rfl⟩ | ⟨_, _, rfl⟩ | ⟨_, _, rfl⟩ := tableRead_cases h
    · exact .inl ⟨3, by simp, rfl⟩
    · exact .inl ⟨4, by simp, rfl⟩
    · exact .inr (.inl ⟨_, rfl, by simp⟩)
  | rdstat => cases h; exact .inr (.inl ⟨_, rfl, by simp⟩)
  | rddig => cases h; exact .inr (.inl ⟨_, rfl, by simp⟩)
  | clrerr => cases h; exact .inr (.inr (.inr (.inr (.inl ⟨rfl, rfl⟩))))

/-- Every command ends with a next state. -/
theorem exec_next (i : Instr) (s : State) : ∃ t, exec i s = .next t := by
  cases i with
  | rdtr l st c => exact tableRead_next l (fun s => zextState (s.readTrans l st c)) s
  | rdout l st => exact tableRead_next l (fun s => zextByte (s.readOut l st)) s
  | rdinit l => exact tableRead_next l (fun s => zextState (s.readInit l)) s
  | _ => exact ⟨_, rfl⟩

/-- Executing a word is executing the command it decodes to, or ending in its decode error (30_encoding.md R78). -/
theorem runWord_cases {w : Word} {s t : State} (h : runWord w s = .next t) :
    (∃ c : Byte, (c = 1 ∨ c = 2) ∧ t = s.endedInError c) ∨ (∃ i, decode w = .ok i ∧ exec i s = .next t) := by
  unfold runWord at h
  split at h
  · exact .inr ⟨_, ‹_›, h⟩
  · rename_i e he
    cases h
    cases e
    · exact .inl ⟨1, by simp, rfl⟩
    · exact .inl ⟨2, by simp, rfl⟩

theorem runWord_ok {w : Word} {i : Instr} (h : decode w = .ok i) (s : State) : runWord w s = exec i s := by
  unfold runWord; rw [h]

/-- Executing a word always ends with a next state. -/
theorem runWord_next (w : Word) (s : State) : ∃ t, runWord w s = .next t := by
  unfold runWord; split
  · exact exec_next ..
  · exact ⟨_, rfl⟩

/-- What executing a word leaves as it was: the master's lists, the schedule and what follows it, the draws and GD. -/
theorem runWord_frame {w : Word} {s t : State} (h : runWord w s = .next t) :
    t.cmds = s.cmds ∧ t.taken = s.taken ∧ t.sched = s.sched ∧ t.rest = s.rest ∧ t.draw = s.draw ∧ t.gd = s.gd := by
  obtain ⟨c, _, rfl⟩ | ⟨i, _, h⟩ := runWord_cases h
  · simp
  · obtain ⟨c, _, rfl⟩ | ⟨d, rfl, _⟩ | ⟨m, _, rfl⟩ | ⟨m, _, rfl⟩ | ⟨_, rfl⟩ | ⟨_, rfl⟩ := exec_cases h <;> simp

/-- Executing a word ends in a response, or in GENERATING. -/
theorem runWord_phase {w : Word} {s t : State} (h : runWord w s = .next t) :
    (∃ r, t.phase = .respond r) ∨ t.phase = .generating 0 := by
  obtain ⟨c, _, rfl⟩ | ⟨i, _, h⟩ := runWord_cases h
  · simp
  · obtain ⟨c, _, rfl⟩ | ⟨d, rfl, _⟩ | ⟨m, _, rfl⟩ | ⟨m, _, rfl⟩ | ⟨_, rfl⟩ | ⟨_, rfl⟩ := exec_cases h <;> simp

/-- A word starts a GEN exactly where it decodes to one. -/
theorem startsGen_iff {w : Word} : startsGen w = true ↔ decode w = .ok .gen := by simp [startsGen]

/-- A word that has not run in its tick is no GEN (42_generate.md R132). -/
theorem Tick.not_gen_of_not_runs {t : Tick} {w : Word} (h : t.runs w = false) : decode w ≠ .ok .gen := fun e => by
  simp [Tick.runs, startsGen, e] at h

/-- A GEN runs in every tick (42_generate.md R132). -/
theorem Tick.runs_gen (t : Tick) {w : Word} (h : decode w = .ok .gen) : t.runs w = true := by
  simp [Tick.runs, startsGen, h]

/-- The tick after the schedule (log entry 1). -/
theorem State.tick_rest {s : State} (h : s.sched = []) : s.tick = { toInputs := s.rest } := by simp [State.tick, h]

/-- The state in which a step executes the word `w`: after its acceptance in IDLE, or as it is in BUSY. -/
inductive State.ExecutesFrom (s : State) (w : Word) : State → Prop
  | accepted (hp : s.phase = .idle) (hw : presented s.tick s = some w) : ExecutesFrom s w (s.advanceTick.accept w)
  | held (hp : s.phase = .busy w) : ExecutesFrom s w s.advanceTick

/-- Everything a step can do, case by case (10_state.md R32, R35, R36; 70_reset_and_hazards.md R230). -/
theorem step_cases {s t : State} (h : step s = .next t) :
    (s.tick.rst = true ∧ t = s.advanceTick.resetCore) ∨
    (s.tick.rst = false ∧
      ((∃ w b, s.executing = some w ∧ s.ExecutesFrom w b ∧ runWord w b = .next t) ∨
       (∃ w, s.executing = none ∧ decode w ≠ .ok .gen ∧ s.phase = .idle ∧ presented s.tick s = some w ∧
         t = s.advanceTick.accept w) ∨
       (∃ k, s.executing = none ∧ s.phase = .generating k ∧ t = s.advanceTick.advanceGen k s.tick.seqSteps) ∨
       (∃ r, s.executing = none ∧ s.phase = .respond r ∧ s.tick.rspReady = true ∧ t = s.advanceTick.transfer r) ∨
       (s.executing = none ∧ s.gseq = none ∧ t = s.advanceTick))) := by
  unfold step phaseStep at h
  have hpr : presented s.tick s.advanceTick = presented s.tick s := rfl
  split at h
  · cases h; exact .inl ⟨‹_›, rfl⟩
  · rename_i hr
    have hr : s.tick.rst = false := by simpa using hr
    refine .inr ⟨hr, ?_⟩
    split at h
    · rename_i hp
      replace hp : s.phase = .idle := hp
      unfold idleStep at h
      rw [hpr] at h
      split at h
      · rename_i w hw
        unfold busyStep at h
        split at h
        · rename_i hd
          exact .inl ⟨w, _, by simp [State.executing, State.atHand, hr, hd, hp, hw], .accepted hp hw, h⟩
        · rename_i hd
          cases h
          exact .inr (.inl ⟨w, by simp [State.executing, State.atHand, hd, hp, hw],
            Tick.not_gen_of_not_runs (by simpa using hd), hp, hw, rfl⟩)
      · rename_i hw
        cases h
        exact .inr (.inr (.inr (.inr ⟨by simp [State.executing, State.atHand, hp, hw], by simp [State.gseq, hp], rfl⟩)))
    · rename_i w hp
      replace hp : s.phase = .busy w := hp
      unfold busyStep at h
      split at h
      · rename_i hd
        exact .inl ⟨w, _, by simp [State.executing, State.atHand, hr, hd, hp], .held hp, h⟩
      · rename_i hd
        cases h
        exact .inr (.inr (.inr (.inr ⟨by simp [State.executing, State.atHand, hd, hp], by simp [State.gseq, hp], rfl⟩)))
    · rename_i k hp
      replace hp : s.phase = .generating k := hp
      cases h
      exact .inr (.inr (.inl ⟨k, by simp [State.executing, State.atHand, hp], hp, rfl⟩))
    · rename_i r hp
      replace hp : s.phase = .respond r := hp
      unfold respondStep at h
      cases h
      split
      · exact .inr (.inr (.inr (.inl ⟨r, by simp [State.executing, State.atHand, hp], hp, ‹_›, rfl⟩)))
      · exact .inr (.inr (.inr (.inr ⟨by simp [State.executing, State.atHand, hp], by simp [State.gseq, hp], rfl⟩)))

/-- A run of no steps. -/
theorem run_zero (s : State) : Host.Core.run Sys2Proof.core 0 s = .next s := rfl

/-- A run takes its first step, and goes on from its next state if it has one. -/
theorem run_step (M : Host.Core) (n : Nat) (s : M.State) : M.run (n + 1) s =
    match M.step s with
    | .next t => M.run n t
    | .fault r => .fault r
    | .refused r => .refused r := rfl

/-- A run whose first step has a next state goes on from it. -/
theorem run_succ {s t : State} (h : step s = .next t) (n : Nat) :
    Host.Core.run Sys2Proof.core (n + 1) s = Host.Core.run Sys2Proof.core n t := by
  have e : Sys2Proof.core.step s = .next t := h
  have r := run_step Sys2Proof.core n s
  rw [e] at r
  exact r

/-- A run of `m` steps that has a next state, then a run of `n` steps. -/
theorem run_add {s t : State} {m : Nat} (h : Host.Core.run Sys2Proof.core m s = .next t) (n : Nat) :
    Host.Core.run Sys2Proof.core (m + n) s = Host.Core.run Sys2Proof.core n t := by
  induction m generalizing s with
  | zero =>
    cases (run_zero s).symm.trans h
    rw [Nat.zero_add]
  | succ m ih =>
    cases hs : step s with
    | next u =>
      rw [run_succ hs] at h
      rw [Nat.add_right_comm, run_succ hs]
      exact ih h
    | fault f => cases f
    | refused r =>
      have e : Sys2Proof.core.step s = .refused r := hs
      have q := run_step Sys2Proof.core m s
      rw [e] at q
      cases q.symm.trans h

end Sys2Proof.Machine
end

