-- ==== Sys2Proof/Tests/Slice0.lean ====
section
/-! SUPPORT. The model's own tests: small, on one step each. Expected values come from the spec's text and vectors
(95_test_vectors.md), named at each test. The last part shows, for every statement with hypotheses, a state that meets them. -/

namespace Sys2Proof.Tests

open Sys2Proof.Machine

/-! ### Well-formedness: one ill-formed statement for each check (30_encoding.md R79, R80) -/

theorem test_illformed_ldlo_imm : (Source.ldlo 0x10000).wellFormed = false := by decide
theorem test_illformed_ldhi_imm : (Source.ldhi 0x10000).wellFormed = false := by decide
theorem test_illformed_rdtr_layer : (Source.rdtr 4 0 0).wellFormed = false := by decide
theorem test_illformed_rdtr_state : (Source.rdtr 0 32 0).wellFormed = false := by decide
theorem test_illformed_rdtr_sym : (Source.rdtr 0 0 256).wellFormed = false := by decide
theorem test_illformed_rdout_layer : (Source.rdout 4 0).wellFormed = false := by decide
theorem test_illformed_rdout_state : (Source.rdout 0 32).wellFormed = false := by decide
theorem test_illformed_rdinit_layer : (Source.rdinit 4).wellFormed = false := by decide
theorem test_illformed_lddig_imm : (Source.lddig 0x100000000).wellFormed = false := by decide
/-- "`layer` = 3 assembles" (30_encoding.md R79). -/
theorem test_layer_three_is_wellformed : (Source.rdtr 3 31 255).wellFormed = true := by decide

/-! ### Decoding: words written out bit by bit from 30_encoding.md R71, R75 -/

theorem test_decode_nop : decode 0b00000000000000000000000000000000 = .ok .nop := by decide
theorem test_decode_ldlo : decode 0b00010000000000001111100100011000 = .ok (.ldlo 0xF918) := by decide
theorem test_decode_ldhi : decode 0b00100000000000001001110011100100 = .ok (.ldhi 0x9CE4) := by decide
theorem test_decode_gen : decode 0b00110000000000000000000000000000 = .ok .gen := by decide
/-- OPC 0100, LAYER 01, STATE 00101, SYM 01000001: `RDTR 1, 5, 0x41` = 0x44A82000 (30_encoding.md R79). -/
theorem test_decode_rdtr : decode 0b01000100101010000010000000000000 = .ok (.rdtr 1 5 0x41) := by decide
theorem test_decode_rdout : decode 0b01011011111000000000000000000000 = .ok (.rdout 2 31) := by decide
theorem test_decode_rdinit : decode 0b01101000000000000000000000000000 = .ok (.rdinit 2) := by decide
theorem test_decode_rdstat : decode 0b01110000000000000000000000000000 = .ok .rdstat := by decide
theorem test_decode_rddig : decode 0b10000000000000000000000000000000 = .ok .rddig := by decide
theorem test_decode_clrerr : decode 0b10010000000000000000000000000000 = .ok .clrerr := by decide
theorem test_decode_illegal : decode 0xA0000000 = .error .illegalOpcode ∧ decode 0xFFFFFFFF = .error .illegalOpcode := by decide
theorem test_decode_reserved : decode 0x00000001 = .error .rsvdNonzero ∧ decode 0x4C000001 = .error .rsvdNonzero := by decide
theorem test_table_word : decodeTableWord 32 0x4BFFE000 = some (.rdtr 2 31 255) ∧ decodeTableWord 32 0xB0000000 = none := by
  decide

/-! ### One step (95_test_vectors.md V-CMD, V-ERR): `G1` is the state after LDDIG 0x9CE4F918 and GEN -/

/-- G1 of 95_test_vectors.md. -/
def g1 : State := { State.reset with digest := 0x9CE4F918, valid := true, gd := some 0x9CE4F918 }

/-- The response that a step leaves pending. -/
def rsp : Result → Option Response
  | .next t => t.pending
  | _ => none

/-- DIGEST, VALID and ECODE after a step. -/
def regs : Result → Option (Word × Bool × Byte)
  | .next t => some (t.digest, t.valid, t.ecode)
  | _ => none

/-- One step that executes the word `w`. -/
def run1 (s : State) (w : Nat) : Result := step (s.withFetchWord 32 w)

theorem test_nop : rsp (run1 State.reset 0x00000000) = some ⟨false, 0⟩ := by decide
theorem test_nop_reserved : rsp (run1 State.reset 0x00000001) = some ⟨true, 2⟩ := by decide
theorem test_ldlo : regs (run1 State.reset 0x1000F918) = some (0x0000F918, false, 0) := by decide
theorem test_ldhi : regs (run1 State.reset 0x20009CE4) = some (0x9CE40000, false, 0) := by decide
theorem test_ldlo_reserved : regs (run1 State.reset 0x1001F918) = some (0, false, 2) := by decide
theorem test_gen_phase_one : run1 g1 0x30000000 = .next { g1 with valid := false, phase := .generating 0, draw := 1 } := rfl
theorem test_gen_phase_two : step { State.reset with phase := .generating 0 } =
    .next { State.reset with valid := true, gd := some 0, phase := .respond ⟨false, 0⟩, draw := 1 } := rfl
theorem test_gen_reserved : regs (run1 State.reset 0x38000000) = some (0, false, 2) := by decide
theorem test_rdtr_not_valid : rsp (run1 State.reset 0x40000000) = some ⟨true, 4⟩ := by decide
theorem test_rdtr : rsp (run1 g1 0x40082000) = some ⟨false, 0x17⟩ := by decide
theorem test_rdtr_corner : rsp (run1 g1 0x4BFFE000) = some ⟨false, 0x14⟩ := by decide
theorem test_rdtr_layer : regs (run1 g1 0x4C000000) = some (0x9CE4F918, true, 3) := by decide
theorem test_rdout : rsp (run1 g1 0x5BE00000) = some ⟨false, 0x12⟩ := by decide
theorem test_rdinit : rsp (run1 g1 0x64000000) = some ⟨false, 0x14⟩ := by decide
theorem test_rdinit_layer_first : rsp (run1 State.reset 0x6C000000) = some ⟨true, 3⟩ := by decide
theorem test_rdstat : rsp (run1 g1 0x70000000) = some ⟨false, 1⟩ := by decide
/-- "with `ECODE` = 0x04 and `VALID` = 0, (0, 0x00000402)" (43_register_commands.md R153). -/
theorem test_rdstat_error : rsp (run1 { State.reset with ecode := 4 } 0x70000000) = some ⟨false, 0x402⟩ := by decide
/-- RDDIG reads DIGEST, not GD (43_register_commands.md R154; 95_test_vectors.md L3-P3). -/
theorem test_rddig_after_load : rsp (run1 { g1 with digest := 0x9CE40001 } 0x80000000) = some ⟨false, 0x9CE40001⟩ := by decide
theorem test_clrerr : regs (run1 { g1 with ecode := 1 } 0x90000000) = some (0x9CE4F918, true, 0) := by decide
theorem test_illegal : rsp (run1 State.reset 0xFFFFFFFF) = some ⟨true, 1⟩ := by decide
/-- The first error stays recorded (95_test_vectors.md V-ERR, sticky first error). -/
theorem test_sticky : regs (run1 { State.reset with ecode := 1 } 0x00000001) = some (0, false, 1) := by decide

/-! ### Datapath and contracts (95_test_vectors.md) -/

theorem test_rotl8 : rotl8 0x81 9 = 0x03 ∧ rotl8 0x96 3 = 0xB4 ∧ rotl8 0x81 8 = 0x81 := by decide
theorem test_rotl32 : rotl32 0x12345678 13 = 0x8ACF0246 ∧ rotl32 0x12345678 31 = 0x091A2B3C := by decide
theorem test_sbox : sbox 0x00 = 0x85 ∧ sbox 0x41 = 0x49 ∧ sbox 0xFF = 0xF8 := by decide
theorem test_scramble : scramble 0x01 = 0x02 ∧ scramble 0x08 = 0x01 ∧ scramble 0xA5 = 0x1E := by decide
theorem test_wo : wo 0 = 0x9E3779B9 ∧ wo 0xFFFFFFFF = 0x9FA2818F ∧ wo 0x12345678 = 0x3ACCD5A7 := by decide
/-- V-HASH: "a", and the empty key. -/
theorem test_hash : hash specMixing [0x61] = some 0x95A4F9FF ∧ hash specMixing [] = some 0xB284ACA5 := by decide
theorem test_pick_symbol : pickSymbol specMixing 0xFFFFFFFF 1 = 0x0B := by decide
theorem test_row_seed : rowSeed specMixing 0x9CE4F918 2 31 = 0xEE703A6F := by decide
theorem test_init_entries : initEntry specMixing 0 0 = 4 ∧ initEntry specMixing 0 1 = 16 ∧ initEntry specMixing 0 2 = 27 := by
  decide
/-- The first byte of V-RT-1, both ways. -/
theorem test_encode_byte : (encodeByte xorCombine (generate specMixing 0x9CE4F918) [(0, 16), (1, 20), (2, 15)] 0x48) =
    ([(0, 27), (1, 9), (2, 12)], 0x15) := by decide
theorem test_decode_byte : (decodeByte xorCombine (generate specMixing 0x9CE4F918) [(0, 16), (1, 20), (2, 15)] 0x15).2 = 0x48 := by
  decide
/-- 42_generate.md R144: step 0 writes OUT[0][0], step 1 TRANS[0][0][0], step 24674 INIT[2]. -/
theorem test_entry_at : entryAt 0 = some (.out 0 0) ∧ entryAt 1 = some (.trans 0 0 0) ∧ entryAt 24674 = some (.init 2) ∧
    entryAt 24675 = none := by decide
/-- `lddig 0x9CE4f918 ; x` (30_encoding.md R79, R80). -/
theorem test_assemble_lddig : assembleLine ['L', 'd', 'd', 'i', 'g', ' ', '0', 'x', '9', 'C', 'E', '4', 'f', '9', '1', '8', ' ', ';', 'x']
    = .ok [.ldlo 0xF918, .ldhi 0x9CE4] := by decide
/-- `RDTR 1, 5, 0x41`. -/
theorem test_assemble_rdtr : assembleLine ['R', 'D', 'T', 'R', ' ', '1', ',', ' ', '5', ',', '0', 'x', '4', '1']
    = .ok [.rdtr 1 5 0x41] := by decide
theorem test_assemble_refuses : assembleLine ['R', 'D', 'I', 'N', 'I', 'T', ' ', '4'] = .error .doesNotFit := by decide

/-! ### The hypotheses of every statement can be met -/

theorem witness_EncodeOfDecodedWordIsTheWord : decode 0x4BFFE000 = .ok (.rdtr 2 31 255) := by decide
theorem witness_DecodeFollowsTheOpcodeMap : decode 0x9000 = .error .rsvdNonzero ∧ decode 0x90000000 = .ok .clrerr := by decide

theorem witness_WordOutcome_illegal : (0xA : BitVec 4) ≤ opcField 0xA0000000 ∧ (0xA : BitVec 4) ≤ opcField 0xFFFFFFFF := by decide
theorem witness_WordOutcome_reserved :
    opcField 0x90000001 < 0xA ∧ (0x90000001 : Word) &&& rsvdMask (opcField 0x90000001) ≠ 0 := by decide
theorem witness_WordOutcome_layer : opcField 0x6C000000 = 6 ∧ (0x6C000000 : Word) &&& rsvdMask (opcField 0x6C000000) = 0 ∧
    (0x6C000000 : Word).extractLsb' 26 2 = (3 : BitVec 2) := by decide
theorem witness_WordOutcome_not_valid : opcField 0x68000000 = 6 ∧ (0x68000000 : Word) &&& rsvdMask (opcField 0x68000000) = 0 ∧
    (0x68000000 : Word).extractLsb' 26 2 ≠ (3 : BitVec 2) ∧ State.reset.valid = false := by decide
theorem witness_WordOutcome_command : opcField 0x90000000 < 0xA ∧ (0x90000000 : Word) &&& rsvdMask (opcField 0x90000000) = 0 ∧
    opcField 0x4BFFE000 = 4 ∧ (0x4BFFE000 : Word) &&& rsvdMask (opcField 0x4BFFE000) = 0 ∧
    (0x4BFFE000 : Word).extractLsb' 26 2 ≠ (3 : BitVec 2) ∧ g1.valid = true := by decide

theorem witness_Nop_reserved : opcField 0x08000000 = 0x0 ∧ (0x08000000 : Word).extractLsb' 0 28 ≠ (0 : BitVec 28) := by decide
theorem witness_Ldlo_words : opcField 0x1000FFFF = 0x1 ∧ (0x1000FFFF : Word).extractLsb' 16 12 = (0 : BitVec 12) ∧
    opcField 0x10010000 = 0x1 ∧ (0x10010000 : Word).extractLsb' 16 12 ≠ (0 : BitVec 12) := by decide
theorem witness_Ldhi_words : opcField 0x2000FFFF = 0x2 ∧ (0x2000FFFF : Word).extractLsb' 16 12 = (0 : BitVec 12) ∧
    opcField 0x28000000 = 0x2 ∧ (0x28000000 : Word).extractLsb' 16 12 ≠ (0 : BitVec 12) := by decide
theorem witness_Gen_reserved : opcField 0x38000000 = 0x3 ∧ (0x38000000 : Word).extractLsb' 0 28 ≠ (0 : BitVec 28) := by decide
theorem witness_Rdtr_words : opcField 0x4BFFE000 = 0x4 ∧ (0x4BFFE000 : Word).extractLsb' 0 13 = (0 : BitVec 13) ∧
    opcField 0x40001000 = 0x4 ∧ (0x40001000 : Word).extractLsb' 0 13 ≠ (0 : BitVec 13) := by decide
theorem witness_Rdout_words : opcField 0x5BE00000 = 0x5 ∧ (0x5BE00000 : Word).extractLsb' 0 21 = (0 : BitVec 21) ∧
    opcField 0x54100000 = 0x5 ∧ (0x54100000 : Word).extractLsb' 0 21 ≠ (0 : BitVec 21) := by decide
theorem witness_Rdinit_words : opcField 0x68000000 = 0x6 ∧ (0x68000000 : Word).extractLsb' 0 26 = (0 : BitVec 26) ∧
    opcField 0x6A000000 = 0x6 ∧ (0x6A000000 : Word).extractLsb' 0 26 ≠ (0 : BitVec 26) := by decide
theorem witness_Rdstat_reserved : opcField 0x70000001 = 0x7 ∧ (0x70000001 : Word).extractLsb' 0 28 ≠ (0 : BitVec 28) := by decide
theorem witness_Rddig_reserved : opcField 0x80000001 = 0x8 ∧ (0x80000001 : Word).extractLsb' 0 28 ≠ (0 : BitVec 28) := by decide
theorem witness_Clrerr_reserved : opcField 0x98000000 = 0x9 ∧ (0x98000000 : Word).extractLsb' 0 28 ≠ (0 : BitVec 28) := by decide
/-- For RDTR, RDOUT, RDINIT: layers 3 and 2 exist as operands, with VALID 0 and 1, and with VALID 1 a GD. -/
theorem witness_table_reads : (2 : LayerNo) ≠ 3 ∧ State.reset.valid = false ∧ g1.valid = true ∧ g1.gd = some 0x9CE4F918 := by decide

/-- A GEN one internal step at a time, at position `k`. -/
def generatingAt (k : BitVec 15) : State := { State.reset with phase := .generating k, sched := [{ seqSteps := 1 }] }

theorem witness_InternalStepWritesExactlyItsEntry : (generatingAt 24673).phase = .generating 24673 ∧
    (generatingAt 24673).valid = false ∧ (24673 : BitVec 15).toNat < 24674 ∧ (generatingAt 24673).tick.rst = false ∧
    (generatingAt 24673).tick.seqSteps ≤ 1 := by decide
theorem witness_InternalStepWritesExactlyItsEntry_first : (generatingAt 0).phase = .generating 0 ∧ (generatingAt 0).valid = false ∧
    (0 : BitVec 15).toNat < 24674 ∧ (generatingAt 0).tick.rst = false ∧ (generatingAt 0).tick.seqSteps ≤ 1 := by decide
theorem witness_GenPhaseTwoFillsTheTables : (generatingAt 24674).phase = .generating 24674 ∧ (generatingAt 24674).tick.rst = false ∧
    24675 ≤ (24674 : BitVec 15).toNat + max 1 (generatingAt 24674).tick.seqSteps := by decide
theorem witness_EveryGenerationCompletes : (generatingAt 0).phase = .generating 0 ∧ (generatingAt 0).NoReset := by
  exact ⟨rfl, by simp [State.NoReset, generatingAt, State.reset]⟩
theorem witness_EqualDigestsGenerateEqualTables : g1.digest = { State.reset with digest := 0x9CE4F918, ecode := 3 }.digest := by decide

/-- G1 meets the invariant: the hypothesis of ValidExactlyWhenTablesHoldGd and EveryStepKeepsTheInvariant. -/
theorem witness_g1_invariant : g1.Inv where
  ecode_legal := by decide
  valid_has_gd := fun _ => ⟨_, rfl⟩
  generating_legal := fun _ h => by cases h
  busy_not_gen := fun _ h => by cases h
  pending_legal := fun _ h => by cases h
  taken_legal := fun _ h => by cases h
theorem witness_EveryStepKeepsTheInvariant : g1.Inv ∧ ∃ t, step g1 = .next t := ⟨witness_g1_invariant, _, rfl⟩

theorem witness_RowPermutationBijectiveForEveryMixing : ∃ m : Mixing, (∀ n, Function.Bijective fun b => m.rotl8 b n) ∧
    Function.Bijective m.sbox ∧ Function.Bijective m.scramble :=
  ⟨⟨fun b _ => b, id, id, id⟩, fun _ => Function.bijective_id, Function.bijective_id, Function.bijective_id⟩

theorem witness_OnlyGenChangesTheTables : (Instr.ldlo 0xFFFF) ≠ .gen ∧ g1.gseq = none := by decide
/-- The three ways VALID changes: by reset, by starting a GEN, by completing one. -/
theorem witness_ValidChanges_reset : (∃ t, step { g1 with sched := [{ rst := true }] } = .next t ∧ t.valid = false) ∧ g1.valid = true :=
  ⟨⟨_, rfl, rfl⟩, rfl⟩
theorem witness_ValidChanges_start : (∃ t, step { g1 with cmds := [0x30000000] } = .next t ∧ t.valid = false) ∧ g1.valid = true :=
  ⟨⟨_, rfl, rfl⟩, rfl⟩
theorem witness_ValidChanges_complete : (∃ t, step (generatingAt 24674) = .next t ∧ t.valid = true) ∧ (generatingAt 24674).valid = false :=
  ⟨⟨_, rfl, rfl⟩, rfl⟩
theorem witness_DigestChanges : (∃ t, step { g1 with cmds := [0x10000001] } = .next t ∧ t.digest = 0x9CE40001) ∧
    (∃ t, step { g1 with cmds := [0x20000001] } = .next t ∧ t.digest = 0x0001F918) ∧
    (∃ t, step { g1 with sched := [{ rst := true }] } = .next t ∧ t.digest = 0) :=
  ⟨⟨_, rfl, by decide⟩, ⟨_, rfl, by decide⟩, ⟨_, rfl, rfl⟩⟩
theorem witness_RecordedErrorIsSticky : ∃ t, step { g1 with ecode := 2, cmds := [0x90000000] } = .next t ∧ t.ecode = 0 := ⟨_, rfl, rfl⟩
theorem witness_ErrorsArePrecise : ∃ t, runWord 0x6C000000 g1 = .next t ∧ t.phase = .respond ⟨true, 3⟩ := ⟨_, rfl, rfl⟩
theorem witness_ReadsChangeNoState : Instr.rdout 2 31 ≠ .gen ∧ (∀ imm, Instr.rdout 2 31 ≠ .ldlo imm) ∧
    (∀ imm, Instr.rdout 2 31 ≠ .ldhi imm) ∧ Instr.rdout 2 31 ≠ .clrerr := by simp
theorem witness_HiddenGdIsUnreadableWhileNotValid : State.reset.valid = false := rfl

/-- G1 with a command waiting. -/
def g1With (w : Word) : State := { g1 with cmds := [w] }

theorem witness_StepRunsTheDecodedCommand : decode 0x80000000 = .ok .rddig ∧ (g1With 0x80000000).tick.rst = false ∧
    (g1With 0x80000000).tick.cmdDone = true ∧ (g1With 0x80000000).phase = .idle ∧ (g1With 0x80000000).tick.cmdValid = true ∧
    (g1With 0x80000000).cmds = [0x80000000] := by decide
theorem witness_StepRunsTheDecodedCommand_busy : ({ g1 with phase := .busy 0x80000000 } : State).phase = .busy 0x80000000 ∧
    ({ g1 with phase := .busy 0x80000000 } : State).tick.rst = false := by decide
theorem witness_StepRunsTheDecodedCommand_error : decode 0xA0000000 = .error .illegalOpcode ∧
    decode 0x30000001 = .error .rsvdNonzero ∧ (g1With 0x30000001).cmds = [0x30000001] := by decide
/-- G1 with a word waiting and a tick that lets no command finish. -/
def g1Slow (w : Word) : State := { g1With w with sched := [{ cmdDone := false }] }
theorem witness_StepRunsTheDecodedCommand_slow : decode 0x30000000 = .ok .gen ∧ decode 0x80000000 ≠ .ok .gen ∧
    (g1Slow 0x30000000).tick.cmdDone = false ∧ (g1Slow 0x30000000).tick.rst = false ∧ (g1Slow 0x30000000).phase = .idle ∧
    (g1Slow 0x30000000).tick.cmdValid = true ∧ (g1Slow 0x30000000).cmds = [0x30000000] := by decide
/-- A GEN's phase 1 happens at its acceptance whatever CMD_LATENCY is; another command stays BUSY (42_generate.md R132, 10_state.md R32). -/
theorem test_gen_never_busy : step (g1Slow 0x30000000) =
    .next { g1 with valid := false, phase := .generating 0, draw := 1 } := rfl
theorem test_slow_command_is_busy : step (g1Slow 0x80000000) = .next { g1 with phase := .busy 0x80000000, draw := 1 } := rfl
theorem witness_AcceptsOnlyWhenReady : ∃ t, step (g1With 0) = .next t ∧ t.cmds = [] := ⟨_, rfl, rfl⟩
/-- A pending response, with `rsp_ready` as given. -/
def respondingWith (ready : Bool) : State := { g1 with phase := .respond ⟨false, 7⟩, sched := [{ rspReady := ready }] }
theorem witness_ResponseIsHeldUntilTaken : (respondingWith false).phase = .respond ⟨false, 7⟩ ∧ (respondingWith false).tick.rst = false ∧
    (respondingWith false).tick.rspReady = false ∧ (respondingWith true).tick.rspReady = true := by decide
/-- A pending response that the master never takes. -/
def neverTaken : State := { g1 with phase := .respond ⟨false, 7⟩, rest := { rspReady := false } }
theorem witness_UntakenResponseStallsForGood : neverTaken.phase = .respond ⟨false, 7⟩ ∧ neverTaken.NeverTaken :=
  ⟨rfl, by simp [State.NeverTaken, neverTaken, g1, State.reset]⟩
theorem witness_UntakenResponseStallsForGood_taken : ∃ t, step (respondingWith true) = .next t := ⟨_, rfl⟩
theorem witness_OneResponsePerCommand : (∃ t, step (g1With 0) = .next t) ∧ (g1With 0).tick.rst = false := ⟨⟨_, rfl⟩, rfl⟩
theorem witness_ResetAbandonsEverything : ({ generatingAt 7 with sched := [{ rst := true }] } : State).tick.rst = true := rfl
theorem witness_TimingNeverChangesTheResult : g1.Inv ∧ g1.NoReset ∧ g1.MasterGoesOn ∧ g1.phase = .idle :=
  ⟨witness_g1_invariant, by simp [State.NoReset, g1, State.reset], ⟨rfl, rfl⟩, rfl⟩
theorem witness_PortReadsTheGeneratedTables : g1.tablesValid = true ∧ g1.gd = some 0x9CE4F918 ∧
    (0x5FFF : BitVec 15).extractLsb' 13 2 ≠ (3 : BitVec 2) ∧ (0x5F : BitVec 7).extractLsb' 5 2 ≠ (3 : BitVec 2) ∧
    (2 : BitVec 2) ≠ 3 := by decide
theorem witness_DecodingUndoesEncoding : (List.replicate 1024 (0x41 : Byte)).length ≤ 1024 ∧ ([] : List Byte).length ≤ 1024 :=
  ⟨le_of_eq List.length_replicate, Nat.zero_le _⟩
theorem witness_RoundTripThroughThePort : (∀ j, j < ([0x48] : List Byte).length →
    ((fun _ => g1) j : State).tablesValid = true ∧ ((fun _ => g1) j : State).gd = some 0x9CE4F918) ∧ ([0x48] : List Byte).length ≤ 1024 :=
  ⟨fun _ _ => ⟨rfl, rfl⟩, by decide⟩
theorem witness_OnlyOverlongStringsAreRejected : 1024 < (List.replicate 1025 (0x41 : Byte)).length := by
  rw [List.length_replicate]; decide

end Sys2Proof.Tests
end

/-! PROOFS. The statements about AG's state, its channels and its invariant (10_state.md), over a layer of facts on the steps of
each phase. -/

namespace Sys2Proof.Machine

/-! ### One equation for each kind of step -/

section StepEquations

variable {s : State} {w : Word}

theorem step_reset (hr : s.tick.rst = true) : step s = .next s.advanceTick.resetCore := by
  simp [step, phaseStep, hr]

theorem step_presented (hr : s.tick.rst = false) (hp : s.phase = .idle) (hw : presented s.tick s = some w) :
    step s = busyStep s.tick w (s.advanceTick.accept w) := by
  have hw' : presented s.tick s.advanceTick = some w := hw
  simp [step, phaseStep, idleStep, hr, hp, hw']

theorem step_idle_waiting (hr : s.tick.rst = false) (hp : s.phase = .idle) (hw : presented s.tick s = none) :
    step s = .next s.advanceTick := by
  have hw' : presented s.tick s.advanceTick = none := hw
  simp [step, phaseStep, idleStep, hr, hp, hw']

theorem step_busy (hr : s.tick.rst = false) (hp : s.phase = .busy w) : step s = busyStep s.tick w s.advanceTick := by
  simp [step, phaseStep, hr, hp]

theorem step_generating {k : BitVec 15} (hr : s.tick.rst = false) (hp : s.phase = .generating k) :
    step s = .next (s.advanceTick.advanceGen k s.tick.seqSteps) := by
  simp [step, phaseStep, hr, hp]

theorem step_respond_taken {r : Response} (hr : s.tick.rst = false) (hp : s.phase = .respond r)
    (hy : s.tick.rspReady = true) : step s = .next (s.advanceTick.transfer r) := by
  simp [step, phaseStep, respondStep, hr, hp, hy]

theorem step_respond_held {r : Response} (hr : s.tick.rst = false) (hp : s.phase = .respond r)
    (hy : s.tick.rspReady = false) : step s = .next s.advanceTick := by
  simp [step, phaseStep, respondStep, hr, hp, hy]

theorem busyStep_runs {t : Tick} (h : t.runs w = true) (s : State) : busyStep t w s = runWord w s := by
  simp [busyStep, h]

theorem busyStep_waits {t : Tick} (h : t.runs w = false) (s : State) : busyStep t w s = .next s := by
  simp [busyStep, h]

/-- A word runs in its tick exactly when the tick lets a command finish or the word is a GEN (42_generate.md R132). -/
theorem Tick.runs_iff {t : Tick} : t.runs w = true ↔ t.cmdDone = true ∨ decode w = .ok .gen := by
  simp [Tick.runs, startsGen]

theorem Tick.runs_eq_false {t : Tick} (hd : t.cmdDone = false) (hg : decode w ≠ .ok .gen) : t.runs w = false := by
  simp [Tick.runs, startsGen, hd, hg]

/-- The presented word is the oldest of the master's words (10_state.md R35). -/
theorem cmds_of_presented {t : Tick} (h : presented t s = some w) : s.cmds = w :: s.cmds.tail := by
  unfold presented at h
  split at h
  · exact (List.cons_head?_tail h).symm
  · cases h

theorem presented_cons {t : Tick} {ws : List Word} (hv : t.cmdValid = true) (hc : s.cmds = w :: ws) :
    presented t s = some w := by
  simp [presented, hv, hc]

/-- The acceptance of the oldest word in a step, as a record. -/
theorem accept_advanceTick_cons {ws : List Word} (hc : s.cmds = w :: ws) : s.advanceTick.accept w =
    { s with phase := .busy w, cmds := ws, sched := s.sched.tail, draw := s.draw + 1 } := by
  simp [State.accept, State.advanceTick, hc]

end StepEquations

/-! ### What acceptance and execution do to the registers -/

/-- Acceptance leaves the registers and the record of responses as they were. -/
theorem State.ExecutesFrom.registers {s b : State} {w : Word} (h : s.ExecutesFrom w b) :
    b.digest = s.digest ∧ b.valid = s.valid ∧ b.ecode = s.ecode ∧ b.gd = s.gd ∧ b.taken = s.taken := by
  cases h <;> simp

/-- A word that is executed was held in BUSY, or it leaves the master's list in IDLE, where it was the oldest. -/
theorem State.ExecutesFrom.source {s b : State} {w : Word} (h : s.ExecutesFrom w b) :
    (s.phase = .busy w ∧ b.cmds = s.cmds) ∨ (s.phase = .idle ∧ s.cmds = w :: b.cmds) := by
  cases h with
  | accepted hp hw => exact .inr ⟨hp, cmds_of_presented hw⟩
  | held hp => exact .inl ⟨hp, rfl⟩

/-- Executing a word leaves VALID as it was, unless it is phase 1 of a GEN (20_memory.md R57). -/
theorem runWord_valid {w : Word} {s t : State} (h : runWord w s = .next t) :
    t.valid = s.valid ∨ (decode w = .ok .gen ∧ t = s.startGen) := by
  obtain ⟨c, _, rfl⟩ | ⟨i, hi, h⟩ := runWord_cases h
  · exact .inl rfl
  · obtain ⟨c, _, rfl⟩ | ⟨d, rfl, _⟩ | ⟨m, _, rfl⟩ | ⟨m, _, rfl⟩ | ⟨_, rfl⟩ | ⟨rfl, rfl⟩ := exec_cases h
    · exact .inl rfl
    · exact .inl rfl
    · exact .inl rfl
    · exact .inl rfl
    · exact .inl rfl
    · exact .inr ⟨hi, rfl⟩

/-- Executing a word leaves DIGEST as it was, unless it is an LDLO or an LDHI (10_state.md R21). -/
theorem runWord_digest {w : Word} {s t : State} (h : runWord w s = .next t) :
    t.digest = s.digest ∨ (∃ m, decode w = .ok (.ldlo m)) ∨ ∃ m, decode w = .ok (.ldhi m) := by
  obtain ⟨c, _, rfl⟩ | ⟨i, hi, h⟩ := runWord_cases h
  · exact .inl rfl
  · obtain ⟨c, _, rfl⟩ | ⟨d, rfl, _⟩ | ⟨m, rfl, _⟩ | ⟨m, rfl, _⟩ | ⟨_, rfl⟩ | ⟨_, rfl⟩ := exec_cases h
    · exact .inl rfl
    · exact .inl rfl
    · exact .inr (.inl ⟨m, hi⟩)
    · exact .inr (.inr ⟨m, hi⟩)
    · exact .inl rfl
    · exact .inl rfl

/-- The sequencer writes no register but VALID, GD and PHASE, and leaves AG in GENERATING or with a response. -/
theorem State.advanceGen_frame (s : State) (k : BitVec 15) (n : Nat) :
    (s.advanceGen k n).digest = s.digest ∧ (s.advanceGen k n).cmds = s.cmds ∧ (s.advanceGen k n).taken = s.taken ∧
      (s.advanceGen k n).phase ≠ .idle := by
  obtain ⟨_, e⟩ | ⟨_, e⟩ := s.advanceGen_cases k n <;> simp [e]

/-! ### The invariant -/

/-- The part of the invariant that does not speak of PHASE. Executing a word needs only this of the state it starts from, in which
a GEN just accepted stands in PHASE (10_state.md R24, R25). -/
structure State.RegistersLegal (s : State) : Prop where
  /-- ECODE holds 0x00 to 0x04. -/
  ecode_legal : s.ecode.toNat ≤ 4
  /-- VALID = 1 has a GD. -/
  valid_has_gd : s.valid = true → ∃ d, s.gd = some d
  /-- No response taken carries an illegal error code (60_exceptions.md R201). -/
  taken_legal : ∀ r ∈ s.taken, r.Legal

theorem State.Inv.registersLegal {s : State} (h : s.Inv) : s.RegistersLegal :=
  ⟨h.ecode_legal, h.valid_has_gd, h.taken_legal⟩

/-! What each phase asks for beyond the registers. -/

section PhaseInvariants

variable {s : State} (h : s.RegistersLegal)

include h

theorem State.RegistersLegal.inv_idle (hp : s.phase = .idle) : s.Inv where
  __ := h
  generating_legal _ e := by simp [hp] at e
  busy_not_gen _ e := by simp [hp] at e
  pending_legal _ e := by simp [hp] at e

theorem State.RegistersLegal.inv_busy {w : Word} (hp : s.phase = .busy w) (hw : decode w ≠ .ok .gen) : s.Inv where
  __ := h
  generating_legal _ e := by simp [hp] at e
  busy_not_gen v e := by cases hp.symm.trans e; exact hw
  pending_legal _ e := by simp [hp] at e

theorem State.RegistersLegal.inv_generating {k : BitVec 15} (hp : s.phase = .generating k) (hv : s.valid = false)
    (hk : k.toNat < Config.genSteps) : s.Inv where
  __ := h
  generating_legal _ e := by cases hp.symm.trans e; exact ⟨hv, hk⟩
  busy_not_gen _ e := by simp [hp] at e
  pending_legal _ e := by simp [hp] at e

theorem State.RegistersLegal.inv_respond {r : Response} (hp : s.phase = .respond r) (hl : r.Legal)
    (he : r.err = true → s.ecode ≠ 0) : s.Inv where
  __ := h
  generating_legal _ e := by simp [hp] at e
  busy_not_gen _ e := by simp [hp] at e
  pending_legal _ e := by cases hp.symm.trans e; exact ⟨hl, he⟩

end PhaseInvariants

/-- A response without error is legal, whatever its data. -/
theorem Response.legal_ok (d : Word) : Response.Legal ⟨false, d⟩ := fun e => by cases e

section RegistersLegalOfUpdates

variable {s : State} (h : s.RegistersLegal)

include h

theorem State.RegistersLegal.withDigest (d : Digest) : State.RegistersLegal { s with digest := d } :=
  ⟨h.ecode_legal, h.valid_has_gd, h.taken_legal⟩

theorem State.RegistersLegal.clearedError : State.RegistersLegal { s with ecode := 0 } :=
  ⟨Nat.zero_le _, h.valid_has_gd, h.taken_legal⟩

theorem State.RegistersLegal.inv_responding (d : Word) : (s.responding d).Inv :=
  State.RegistersLegal.inv_respond ⟨h.ecode_legal, h.valid_has_gd, h.taken_legal⟩ rfl (Response.legal_ok d) nofun

/-- Ending in error keeps the registers legal, and the error of the response is recorded (60_exceptions.md R203, R204). -/
theorem State.RegistersLegal.inv_endedInError {c : Byte} (hc : c = 1 ∨ c = 2 ∨ c = 3 ∨ c = 4) : (s.endedInError c).Inv := by
  have hc0 : c ≠ 0 := by rintro rfl; simp at hc
  have hrange : 1 ≤ c.toNat ∧ c.toNat ≤ 4 := by obtain rfl | rfl | rfl | rfl := hc <;> decide
  have hdata : (c.setWidth 32).toNat = c.toNat := BitVec.toNat_setWidth_of_le (by decide)
  refine State.RegistersLegal.inv_respond (r := ⟨true, c.setWidth 32⟩) ⟨?_, h.valid_has_gd, h.taken_legal⟩ rfl ?_ ?_
  · rw [State.endedInError_ecode]
    split
    · exact hrange.2
    · exact h.ecode_legal
  · intro _
    rw [hdata]
    exact hrange
  · intro _
    rw [State.endedInError_ecode]
    split
    · exact hc0
    · assumption

/-- Phase 1 of a GEN: GSEQ starts below its bound with VALID = 0 (42_generate.md R130). -/
theorem State.RegistersLegal.inv_startGen : s.startGen.Inv :=
  State.RegistersLegal.inv_generating ⟨h.ecode_legal, nofun, h.taken_legal⟩ rfl rfl (by decide)

/-- Phase 2 of a GEN: VALID becomes 1 together with GD (42_generate.md R130). -/
theorem State.RegistersLegal.inv_finishGen : s.finishGen.Inv :=
  State.RegistersLegal.inv_respond ⟨h.ecode_legal, fun _ => ⟨_, rfl⟩, h.taken_legal⟩ rfl (Response.legal_ok 0) nofun

/-- Executing a word establishes the invariant from legal registers, whatever phase it starts in. -/
theorem State.RegistersLegal.inv_runWord {w : Word} {t : State} (e : runWord w s = .next t) : t.Inv := by
  obtain ⟨c, hc, rfl⟩ | ⟨i, _, e⟩ := runWord_cases e
  · exact h.inv_endedInError (by tauto)
  · obtain ⟨c, hc, rfl⟩ | ⟨d, rfl, _⟩ | ⟨m, _, rfl⟩ | ⟨m, _, rfl⟩ | ⟨_, rfl⟩ | ⟨_, rfl⟩ := exec_cases e
    · exact h.inv_endedInError (by tauto)
    · exact h.inv_responding d
    · exact (h.withDigest _).inv_responding 0
    · exact (h.withDigest _).inv_responding 0
    · exact h.clearedError.inv_responding 0
    · exact h.inv_startGen

theorem State.RegistersLegal.of_executesFrom {w : Word} {b : State} (e : s.ExecutesFrom w b) : b.RegistersLegal := by
  obtain ⟨_, hv, he, hg, ht⟩ := e.registers
  exact ⟨he ▸ h.ecode_legal, hv ▸ hg ▸ h.valid_has_gd, ht ▸ h.taken_legal⟩

end RegistersLegalOfUpdates

section InvOfUpdates

variable {s : State} (h : s.Inv)

include h

theorem State.Inv.advanceTick : s.advanceTick.Inv :=
  ⟨h.ecode_legal, h.valid_has_gd, h.generating_legal, h.busy_not_gen, h.pending_legal, h.taken_legal⟩

theorem State.Inv.resetCore : s.resetCore.Inv :=
  State.RegistersLegal.inv_idle ⟨Nat.zero_le _, nofun, h.taken_legal⟩ rfl

theorem State.Inv.accept {w : Word} (hw : decode w ≠ .ok .gen) : (s.accept w).Inv :=
  State.RegistersLegal.inv_busy ⟨h.ecode_legal, h.valid_has_gd, h.taken_legal⟩ rfl hw

/-- The response that joins those taken was legal while it was pending. -/
theorem State.Inv.transfer {r : Response} (hp : s.phase = .respond r) : (s.transfer r).Inv := by
  refine State.RegistersLegal.inv_idle ⟨h.ecode_legal, h.valid_has_gd, fun q hq => ?_⟩ rfl
  obtain hq | hq := List.mem_append.mp hq
  · exact h.taken_legal q hq
  · cases List.mem_singleton.mp hq
    exact (h.pending_legal r hp).1

/-- The sequencer either moves on below its bound, where GSEQ does not wrap, or completes the GEN. -/
theorem State.Inv.advanceGen {k : BitVec 15} (hp : s.phase = .generating k) (n : Nat) : (s.advanceGen k n).Inv := by
  obtain ⟨hk, e⟩ | ⟨_, e⟩ := s.advanceGen_cases k n
  · rw [e]
    refine State.RegistersLegal.inv_generating ⟨h.ecode_legal, h.valid_has_gd, h.taken_legal⟩ rfl
      (h.generating_legal k hp).1 ?_
    rw [BitVec.toNat_ofNat]
    exact lt_of_le_of_lt (Nat.mod_le _ _) hk
  · rw [e]
    exact h.registersLegal.inv_finishGen

end InvOfUpdates

/-- Settles O42: execution establishes the invariant from legal registers, and every other step is one of the updates above. -/
theorem everyStepKeepsTheInvariant : Obligations.EveryStepKeepsTheInvariant := by
  intro s t hs h
  obtain ⟨_, rfl⟩ | ⟨_, ⟨w, b, _, hb, hrun⟩ | ⟨w, _, hw, _, _, rfl⟩ | ⟨k, _, hp, rfl⟩ | ⟨r, _, hp, _, rfl⟩ | ⟨_, _, rfl⟩⟩ :=
    step_cases h
  · exact hs.advanceTick.resetCore
  · exact (hs.registersLegal.of_executesFrom hb).inv_runWord hrun
  · exact hs.advanceTick.accept hw
  · exact hs.advanceTick.advanceGen hp _
  · exact hs.advanceTick.transfer hp
  · exact hs.advanceTick

/-- Settles O41. -/
theorem resetSatisfiesTheInvariant : Obligations.ResetSatisfiesTheInvariant :=
  State.RegistersLegal.inv_idle ⟨Nat.zero_le _, nofun, nofun⟩ rfl

/-! ### VALID, DIGEST and GD -/

/-- With VALID = 1 the tables hold the automaton of GD (10_state.md R29). -/
theorem State.holds_of_valid {s : State} {d : Digest} (hv : s.valid = true) (hg : s.gd = some d) : s.Holds d := by
  intro e he
  simp [State.entry_eq, State.tableSeed_valid hv, hg, he]

/-- With VALID = 0 the entry that the last internal step writes holds no value: a GEN with that step made has completed
(42_generate.md R144). -/
theorem State.Inv.last_entry_empty {s : State} (h : s.Inv) (hv : s.valid = false) : s.entry (.init 2) = none := by
  suffices hseed : s.tableSeed (Entry.init 2).stepNo = none by
    rw [State.entry_eq, hseed]
    simp
  cases hp : s.phase with
  | generating k =>
    have hk : k.toNat < 24675 := (h.generating_legal k hp).2
    have hlast : (Entry.init 2).stepNo = 24674 := rfl
    rw [State.tableSeed_generating hv hp, hlast, if_neg (by omega)]
  | _ => exact State.tableSeed_none hv (by simp [State.gseq, hp]) _

/-- Settles O23: with VALID = 0 the last entry tells the tables from every generated automaton. -/
theorem validExactlyWhenTablesHoldGd : Obligations.ValidExactlyWhenTablesHoldGd := by
  intro s hs
  constructor
  · intro hv
    obtain ⟨d, hd⟩ := hs.valid_has_gd hv
    exact ⟨d, hd, State.holds_of_valid hv hd⟩
  · rintro ⟨d, _, hholds⟩
    by_contra hv
    have hempty := hs.last_entry_empty (Bool.eq_false_iff.mpr hv)
    exact absurd ((hholds (.init 2) (by decide)).symm.trans hempty) (by simp)

/-- Settles O28. -/
theorem validChangesOnlyByGenOrReset : Obligations.ValidChangesOnlyByGenOrReset := by
  intro s t h hne
  obtain ⟨hr, rfl⟩ | ⟨hr, ⟨w, b, hx, hb, hrun⟩ | ⟨w, _, _, _, _, rfl⟩ | ⟨k, _, hp, rfl⟩ | ⟨r, _, _, _, rfl⟩ | ⟨_, _, rfl⟩⟩ :=
    step_cases h
  · exact .inl ⟨hr, rfl⟩
  · obtain ⟨_, hbv, _⟩ := hb.registers
    obtain hv | ⟨hgen, rfl⟩ := runWord_valid hrun
    · exact absurd (hv.trans hbv) hne
    · exact .inr (.inl ⟨⟨w, hx, hgen⟩, rfl, rfl⟩)
  · exact absurd rfl hne
  · obtain ⟨_, e⟩ | ⟨_, e⟩ := s.advanceTick.advanceGen_cases k s.tick.seqSteps
    · exact absurd (by rw [e]; rfl) hne
    · rw [e]
      exact .inr (.inr ⟨hr, ⟨k, hp⟩, rfl, rfl, rfl⟩)
  · exact absurd rfl hne
  · exact absurd rfl hne

/-- Settles O29. -/
theorem digestChangesOnlyByLoadsOrReset : Obligations.DigestChangesOnlyByLoadsOrReset := by
  intro s t h hne
  obtain ⟨hr, rfl⟩ | ⟨_, ⟨w, b, hx, hb, hrun⟩ | ⟨w, _, _, _, _, rfl⟩ | ⟨k, _, _, rfl⟩ | ⟨r, _, _, _, rfl⟩ | ⟨_, _, rfl⟩⟩ :=
    step_cases h
  · exact .inl ⟨hr, rfl⟩
  · obtain ⟨hbd, _⟩ := hb.registers
    obtain hd | ⟨m, hm⟩ | ⟨m, hm⟩ := runWord_digest hrun
    · exact absurd (hd.trans hbd) hne
    · exact .inr (.inl ⟨m, w, hx, hm⟩)
    · exact .inr (.inr ⟨m, w, hx, hm⟩)
  · exact absurd rfl hne
  · exact absurd (s.advanceTick.advanceGen_frame k _).1 hne
  · exact absurd rfl hne
  · exact absurd rfl hne

/-! ### GD is hidden while VALID = 0 -/

/-- The state with another GD. -/
def State.withGd (s : State) (g : Option Digest) : State := { s with gd := g }

/-- Where VALID is 0 no entry depends on GD (10_state.md R29). -/
theorem State.entry_withGd {s : State} (hv : s.valid = false) (g : Option Digest) (e : Entry) :
    (s.withGd g).entry e = s.entry e := by
  simp [State.entry_eq, State.tableSeed, State.withGd, hv]

/-- The outcomes `x` of a state and `y` of the same state with GD `g` are equal, or differ in GD alone while it cannot be read. -/
def AgreeButGd (g : Option Digest) (x y : Result) : Prop :=
  ∃ t, x = .next t ∧ (y = .next t ∨ (t.valid = false ∧ y = .next (t.withGd g)))

section WithGd

variable {s : State} (hv : s.valid = false) (g : Option Digest)

include hv

/-- With VALID = 0 a table read ends in an error before it reads (30_encoding.md R78). -/
theorem tableRead_withGd (l : LayerNo) (read : State → Word) :
    AgreeButGd g (tableRead l read s) (tableRead l read (s.withGd g)) := by
  have hv' : (s.withGd g).valid = false := hv
  by_cases hl : l = noLayer
  · exact ⟨s.raiseError .layerRange, by simp [tableRead, hl], .inr ⟨hv, by simp [tableRead, hl]; rfl⟩⟩
  · exact ⟨s.raiseError .notValid, by simp [tableRead, hl, hv], .inr ⟨hv, by simp [tableRead, hl, hv']; rfl⟩⟩

theorem exec_withGd (i : Instr) : AgreeButGd g (exec i s) (exec i (s.withGd g)) := by
  cases i with
  | rdtr l st c => exact tableRead_withGd hv g l fun s => zextState (s.readTrans l st c)
  | rdout l st => exact tableRead_withGd hv g l fun s => zextByte (s.readOut l st)
  | rdinit l => exact tableRead_withGd hv g l fun s => zextState (s.readInit l)
  | gen => exact ⟨_, rfl, .inr ⟨rfl, rfl⟩⟩
  | _ => exact ⟨_, rfl, .inr ⟨hv, rfl⟩⟩

theorem runWord_withGd (w : Word) : AgreeButGd g (runWord w s) (runWord w (s.withGd g)) := by
  unfold runWord
  split
  · exact exec_withGd hv g _
  · exact ⟨_, rfl, .inr ⟨hv, rfl⟩⟩

theorem busyStep_withGd (t : Tick) (w : Word) : AgreeButGd g (busyStep t w s) (busyStep t w (s.withGd g)) := by
  unfold busyStep
  split
  · exact runWord_withGd hv g w
  · exact ⟨_, rfl, .inr ⟨hv, rfl⟩⟩

/-- The sequencer reads DIGEST only, and GEN's phase 2 overwrites GD (42_generate.md R130). -/
theorem advanceGen_withGd (k : BitVec 15) (n : Nat) :
    AgreeButGd g (.next (s.advanceGen k n)) (.next ((s.withGd g).advanceGen k n)) := by
  refine ⟨_, rfl, ?_⟩
  simp only [State.advanceGen]
  split
  · exact .inr ⟨hv, rfl⟩
  · exact .inl rfl

/-- With VALID = 0 a step does the same whatever GD is. -/
theorem step_withGd : AgreeButGd g (step s) (step (s.withGd g)) := by
  cases hr : s.tick.rst with
  | true => exact ⟨_, step_reset hr, .inl (step_reset (s := s.withGd g) hr)⟩
  | false =>
    cases hp : s.phase with
    | idle =>
      cases hw : presented s.tick s with
      | none => exact ⟨_, step_idle_waiting hr hp hw, .inr ⟨hv, step_idle_waiting (s := s.withGd g) hr hp hw⟩⟩
      | some w =>
        rw [step_presented hr hp hw, step_presented (s := s.withGd g) hr hp hw]
        exact busyStep_withGd (s := s.advanceTick.accept w) hv g s.tick w
    | busy w =>
      rw [step_busy hr hp, step_busy (s := s.withGd g) hr hp]
      exact busyStep_withGd (s := s.advanceTick) hv g s.tick w
    | generating k =>
      rw [step_generating hr hp, step_generating (s := s.withGd g) hr hp]
      exact advanceGen_withGd (s := s.advanceTick) hv g k s.tick.seqSteps
    | respond r =>
      cases hy : s.tick.rspReady with
      | true => exact ⟨_, step_respond_taken hr hp hy, .inr ⟨hv, step_respond_taken (s := s.withGd g) hr hp hy⟩⟩
      | false => exact ⟨_, step_respond_held hr hp hy, .inr ⟨hv, step_respond_held (s := s.withGd g) hr hp hy⟩⟩

end WithGd

/-- Settles O33. -/
theorem hiddenGdIsUnreadableWhileNotValid : Obligations.HiddenGdIsUnreadableWhileNotValid := by
  intro s g hv
  obtain ⟨t, ht, hu | ⟨htv, hu⟩⟩ := step_withGd hv g
  · exact ⟨t, t, ht, hu, rfl, rfl, rfl, rfl, rfl, rfl, fun _ => rfl⟩
  · exact ⟨t, t.withGd g, ht, hu, rfl, rfl, rfl, rfl, rfl, rfl, fun e => (State.entry_withGd htv g e).symm⟩

/-! ### The channels -/

/-- `cmd_ready` is 1 exactly in IDLE without reset (10_state.md R35). -/
theorem State.cmdReady_iff {s : State} : s.cmdReady = true ↔ s.phase = .idle ∧ s.tick.rst = false := by
  simp [State.cmdReady]

/-- Settles O36: only an acceptance touches the master's words, and it happens in IDLE. -/
theorem acceptsOnlyWhenReady : Obligations.AcceptsOnlyWhenReady := by
  intro s t h
  refine ⟨State.cmdReady_iff, ?_⟩
  obtain ⟨_, rfl⟩ | ⟨hr, ⟨w, b, _, hb, hrun⟩ | ⟨w, _, _, hp, hw, rfl⟩ | ⟨k, _, _, rfl⟩ | ⟨r, _, _, _, rfl⟩ | ⟨_, _, rfl⟩⟩ :=
    step_cases h
  · exact .inl rfl
  · obtain ⟨hcmds, _⟩ := runWord_frame hrun
    obtain ⟨_, hc⟩ | ⟨hp, hc⟩ := hb.source
    · exact .inl (hcmds.trans hc)
    · exact .inr ⟨State.cmdReady_iff.mpr ⟨hp, hr⟩, w, hcmds ▸ hc⟩
  · exact .inr ⟨State.cmdReady_iff.mpr ⟨hp, hr⟩, w, cmds_of_presented hw⟩
  · exact .inl (s.advanceTick.advanceGen_frame k _).2.1
  · exact .inl rfl
  · exact .inl rfl

theorem State.owed_idle {s : State} (h : s.phase = .idle) : s.owed = 0 := by simp [State.owed, h]

theorem State.owed_not_idle {s : State} (h : s.phase ≠ .idle) : s.owed = 1 := by simp [State.owed, h]

/-- After a word has been executed its response is still to be made or to be taken. -/
theorem owed_of_runWord {w : Word} {s t : State} (h : runWord w s = .next t) : t.owed = 1 := by
  apply State.owed_not_idle
  obtain ⟨r, hp⟩ | hp := runWord_phase h <;> simp [hp]

/-- Settles O38: a word that leaves the list is owed, and a response that is taken was. -/
theorem oneResponsePerCommand : Obligations.OneResponsePerCommand := by
  intro s t h hr
  obtain ⟨hr', _⟩ | ⟨_, ⟨w, b, _, hb, hrun⟩ | ⟨w, _, _, hp, hw, rfl⟩ | ⟨k, _, hp, rfl⟩ | ⟨r, _, hp, _, rfl⟩ | ⟨_, _, rfl⟩⟩ :=
    step_cases h
  · simp [hr] at hr'
  · obtain ⟨hcmds, htaken, _⟩ := runWord_frame hrun
    obtain ⟨_, _, _, _, hbt⟩ := hb.registers
    refine ⟨?_, by simp [htaken, hbt]⟩
    rw [hcmds, htaken, hbt, owed_of_runWord hrun]
    obtain ⟨hp, hc⟩ | ⟨hp, hc⟩ := hb.source
    · rw [hc, State.owed_not_idle (by simp [hp])]
    · rw [hc, State.owed_idle hp, List.length_cons]; omega
  · have hc := congrArg List.length (cmds_of_presented hw)
    rw [List.length_cons] at hc
    refine ⟨?_, List.prefix_rfl⟩
    rw [State.owed_idle hp, State.owed_not_idle (by simp)]
    simp only [State.accept_taken, State.accept_cmds, State.advanceTick_taken, State.advanceTick_cmds]
    omega
  · obtain ⟨_, hcmds, htaken, hphase⟩ := s.advanceTick.advanceGen_frame k s.tick.seqSteps
    refine ⟨?_, by simp [htaken]⟩
    rw [hcmds, htaken, State.owed_not_idle hphase, State.owed_not_idle (by simp [hp] : s.phase ≠ .idle)]
    rfl
  · refine ⟨?_, List.prefix_append ..⟩
    rw [State.owed_idle (State.transfer_phase ..), State.owed_not_idle (by simp [hp] : s.phase ≠ .idle)]
    simp
  · exact ⟨rfl, List.prefix_rfl⟩

/-- A word that runs in the tick is executed in the step: on acceptance where it is presented, at once where it is held. -/
theorem step_executes {s : State} {w : Word} (hr : s.tick.rst = false) (hruns : s.tick.runs w = true) :
    (∀ ws, s.phase = .idle → s.tick.cmdValid = true → s.cmds = w :: ws →
      step s = runWord w { s with phase := .busy w, cmds := ws, sched := s.sched.tail, draw := s.draw + 1 }) ∧
    (s.phase = .busy w → step s = runWord w { s with sched := s.sched.tail, draw := s.draw + 1 }) := by
  constructor
  · intro ws hp hv hc
    rw [step_presented hr hp (presented_cons hv hc), busyStep_runs hruns, accept_advanceTick_cons hc]
  · intro hp
    rw [step_busy hr hp, busyStep_runs hruns]
    rfl

/-- A word that does not run in the tick leaves AG BUSY with it (log entry 5). -/
theorem step_waits {s : State} {w : Word} (hr : s.tick.rst = false) (hruns : s.tick.runs w = false) :
    (∀ ws, s.phase = .idle → s.tick.cmdValid = true → s.cmds = w :: ws →
      step s = .next { s with phase := .busy w, cmds := ws, sched := s.sched.tail, draw := s.draw + 1 }) ∧
    (s.phase = .busy w → step s = .next { s with sched := s.sched.tail, draw := s.draw + 1 }) := by
  constructor
  · intro ws hp hv hc
    rw [step_presented hr hp (presented_cons hv hc), busyStep_waits hruns, accept_advanceTick_cons hc]
  · intro hp
    rw [step_busy hr hp, busyStep_waits hruns]
    rfl

/-- A word that does not decode ends in the error of its cause (30_encoding.md R78). -/
theorem runWord_decodeError {w : Word} {e : DecodeError} (h : decode w = .error e) (s : State) :
    runWord w s = .next (s.endedInError (if e = DecodeError.illegalOpcode then 0x01 else 0x02)) := by
  unfold runWord
  rw [h]
  cases e <;> rfl

/-- Settles O34. -/
theorem stepRunsTheDecodedCommand : Obligations.StepRunsTheDecodedCommand := by
  intro s w hr
  refine ⟨fun i hi hnow => ?_, fun hgen ws hp hv hc => ?_, fun e he hd => ?_, fun hgen hd => ?_⟩
  · have hruns : s.tick.runs w = true := Tick.runs_iff.mpr (hnow.imp_right fun h => hi.trans (congrArg _ h))
    simpa only [runWord_ok hi] using step_executes hr hruns
  · rw [(step_executes hr (s.tick.runs_gen hgen)).1 ws hp hv hc, runWord_ok hgen]
    rfl
  · simpa only [runWord_decodeError he] using step_executes (w := w) hr (Tick.runs_iff.mpr (.inl hd))
  · exact step_waits hr (Tick.runs_eq_false hd hgen)

/-- Settles O37. -/
theorem responseIsHeldUntilTaken : Obligations.ResponseIsHeldUntilTaken := by
  intro s r hp hr
  refine ⟨by simp [State.rspOut, hp, hr], fun hy => ?_, fun hy => ?_⟩
  · exact ⟨_, step_respond_held hr hp hy, rfl⟩
  · exact ⟨_, step_respond_taken hr hp hy, rfl⟩

/-! ### Reset -/

/-- Settles O40. -/
theorem resetStateIsAsListed : Obligations.ResetStateIsAsListed := by
  have hentries (e : Entry) : State.reset.entry e = none := by
    simp [State.entry_eq, State.tableSeed_none (s := State.reset) rfl rfl]
  exact ⟨rfl, rfl, rfl, by decide, hentries, rfl, rfl, rfl, rfl⟩

end Sys2Proof.Machine

/-! PROOFS. The statements about the table memory and the order of its accesses (20_memory.md), over a layer of facts on what lies
outside AG: the master's words, the ticks and the draws. -/

namespace Sys2Proof.Machine

/-! ### What the commands leave of the tables and the registers -/

/-- Outside a GEN an entry depends on VALID and GD only (10_state.md R29). -/
theorem State.entry_of_gseq_none {s : State} (hg : s.gseq = none) (e : Entry) : s.entry e =
    if e.populated && s.valid then s.gd.map fun d => entryValue specMixing d e else none := by
  rw [State.entry_eq]
  cases hv : s.valid with
  | true => simp [State.tableSeed_valid hv]
  | false => simp [State.tableSeed_none hv hg]

/-- Between two states outside a GEN the entries are kept with VALID and GD. -/
theorem State.entry_kept {s t : State} (hs : s.gseq = none) (ht : t.gseq = none) (hv : t.valid = s.valid) (hg : t.gd = s.gd)
    (e : Entry) : t.entry e = s.entry e := by
  rw [State.entry_of_gseq_none hs, State.entry_of_gseq_none ht, hv, hg]

/-- Settles O27: every command but GEN ends with a response, in which VALID and GD are as they were. -/
theorem onlyGenChangesTheTables : Obligations.OnlyGenChangesTheTables := by
  intro i s hi hs
  obtain ⟨t, ht⟩ := exec_next i s
  suffices h : t.gseq = none ∧ t.valid = s.valid ∧ t.gd = s.gd by
    obtain ⟨hgseq, hv, hg⟩ := h
    exact ⟨t, ht, hv, hg, State.entry_kept hs hgseq hv hg⟩
  obtain ⟨c, _, rfl⟩ | ⟨d, rfl, _⟩ | ⟨m, _, rfl⟩ | ⟨m, _, rfl⟩ | ⟨_, rfl⟩ | ⟨hgen, _⟩ := exec_cases ht
  · exact ⟨rfl, rfl, rfl⟩
  · exact ⟨rfl, rfl, rfl⟩
  · exact ⟨rfl, rfl, rfl⟩
  · exact ⟨rfl, rfl, rfl⟩
  · exact ⟨rfl, rfl, rfl⟩
  · exact absurd hgen hi

/-- Settles O32: a command that writes no register ends in error or with its data. -/
theorem readsChangeNoState : Obligations.ReadsChangeNoState := by
  intro i s hgen hldlo hldhi hclrerr
  obtain ⟨t, ht⟩ := exec_next i s
  obtain ⟨c, _, rfl⟩ | ⟨d, rfl, _⟩ | ⟨m, hm, _⟩ | ⟨m, hm, _⟩ | ⟨he, _⟩ | ⟨he, _⟩ := exec_cases ht
  · exact ⟨_, ⟨true, c.setWidth 32⟩, ht, rfl, nofun⟩
  · exact ⟨_, ⟨false, d⟩, ht, rfl, fun _ => rfl⟩
  · exact absurd hm (hldlo m)
  · exact absurd hm (hldhi m)
  · exact absurd he hclrerr
  · exact absurd he hgen

/-! ### The flat indices -/

theorem transIndex_toNat (l : LayerNo) (st : StateNo) (c : Byte) :
    (transIndex l st c).toNat = l.toNat * 8192 + st.toNat * 256 + c.toNat := by
  rw [transIndex, Laws.toNat_concat, Laws.toNat_concat]
  omega

theorem outIndex_toNat (l : LayerNo) (st : StateNo) : (outIndex l st).toNat = l.toNat * 32 + st.toNat :=
  Laws.toNat_concat l st

/-- The fields of a TRANS index are the layer, the state and the symbol it was made of (20_memory.md R50). -/
theorem transIndex_fields (l : LayerNo) (st : StateNo) (c : Byte) :
    (transIndex l st c).extractLsb' 13 2 = l ∧ (transIndex l st c).extractLsb' 8 5 = st ∧
      (transIndex l st c).extractLsb' 0 8 = c := by
  have hl := l.isLt
  have hst := st.isLt
  have hc := c.isLt
  refine ⟨BitVec.eq_of_toNat_eq ?_, BitVec.eq_of_toNat_eq ?_, BitVec.eq_of_toNat_eq ?_⟩ <;>
    rw [Laws.extract_toNat, transIndex_toNat] <;> omega

/-- The fields of an OUT index are the layer and the state it was made of (20_memory.md R50). -/
theorem outIndex_fields (l : LayerNo) (st : StateNo) :
    (outIndex l st).extractLsb' 5 2 = l ∧ (outIndex l st).extractLsb' 0 5 = st := by
  have hl := l.isLt
  have hst := st.isLt
  refine ⟨BitVec.eq_of_toNat_eq ?_, BitVec.eq_of_toNat_eq ?_⟩ <;>
    rw [Laws.extract_toNat, outIndex_toNat] <;> omega

theorem State.memReadTrans_transIndex (s : State) (l : LayerNo) (st : StateNo) (c : Byte) :
    s.memReadTrans (transIndex l st c) = s.trans l st c := by
  obtain ⟨hl, hst, hc⟩ := transIndex_fields l st c
  rw [State.memReadTrans, hl, hst, hc]

theorem State.memReadOut_outIndex (s : State) (l : LayerNo) (st : StateNo) :
    s.memReadOut (outIndex l st) = s.out l st := by
  obtain ⟨hl, hst⟩ := outIndex_fields l st
  rw [State.memReadOut, hl, hst]

/-- Settles O46. -/
theorem flatIndexNamesTheEntry : Obligations.FlatIndexNamesTheEntry := fun s l st c =>
  ⟨transIndex_toNat l st c, outIndex_toNat l st, s.memReadTrans_transIndex l st c, s.memReadOut_outIndex l st,
    fun _ => rfl, fun _ => rfl⟩

/-! ### AG does not depend on what lies outside it -/

/-- AG as in `s`, with the master's words, the ticks and the draws of `o`. -/
def State.inWorld (s o : State) : State := { s with cmds := o.cmds, sched := o.sched, rest := o.rest, draw := o.draw }

/-- Two states that show the same differ in the ticks and the draws only. -/
theorem State.eq_inWorld_of_visible {s t : State} (h : t.visible = s.visible) : t = s.inWorld t := by
  simp only [State.visible, Visible.mk.injEq] at h
  obtain ⟨hd, hv, he, hg, hp, _, ht⟩ := h
  simp only [State.inWorld, ← hd, ← hv, ← he, ← hg, ← hp, ← ht]

/-- A change of the ticks and the draws alone does not show. -/
theorem State.visible_inWorld {s o : State} (h : o.cmds = s.cmds) : (s.inWorld o).visible = s.visible := by
  simp [State.visible, State.inWorld, h]

theorem State.settle_inWorld (s o : State) : (s.inWorld o).settle = s.settle.inWorld o := by
  simp only [State.settle, State.inWorld]
  split <;> rfl

theorem State.takeResponse_inWorld (s o : State) : (s.inWorld o).takeResponse = s.takeResponse.inWorld o := by
  simp only [State.takeResponse, State.inWorld]
  split <;> rfl

/-- A table read reads nothing outside AG if the entry it reads, where there is one, does not. -/
theorem tableRead_inWorld {l : LayerNo} {read : State → Word} {s t : State} (o : State)
    (hread : s.valid = true → l ≠ noLayer → read (s.inWorld o) = read s) (h : tableRead l read s = .next t) :
    tableRead l read (s.inWorld o) = .next (t.inWorld o) := by
  have hvo : (s.inWorld o).valid = s.valid := rfl
  obtain ⟨hl, rfl⟩ | ⟨hl, hv, rfl⟩ | ⟨hl, hv, rfl⟩ := tableRead_cases h
  · rw [tableRead, if_pos hl]; rfl
  · rw [tableRead, if_neg hl, if_pos (hvo.trans hv)]; rfl
  · rw [tableRead, if_neg hl, if_neg (by simp [hvo, hv]), hread hv hl]; rfl

section InWorld

variable {s : State} (h : s.RegistersLegal) (o : State)

include h

/-- A command reads nothing outside AG: with VALID = 1 there is a GD, and no table read is free (00_scope.md R10). -/
theorem State.RegistersLegal.exec_inWorld {i : Instr} {t : State} (e : exec i s = .next t) :
    exec i (s.inWorld o) = .next (t.inWorld o) := by
  cases i with
  | rdtr l st c =>
    refine tableRead_inWorld (read := fun s => zextState (s.readTrans l st c)) o (fun hv hl => ?_) e
    obtain ⟨d, hg⟩ := h.valid_has_gd hv
    rw [State.readTrans_valid hv hg hl, State.readTrans_valid (s := s.inWorld o) hv hg hl]
  | rdout l st =>
    refine tableRead_inWorld (read := fun s => zextByte (s.readOut l st)) o (fun hv hl => ?_) e
    obtain ⟨d, hg⟩ := h.valid_has_gd hv
    rw [State.readOut_valid hv hg hl, State.readOut_valid (s := s.inWorld o) hv hg hl]
  | rdinit l =>
    refine tableRead_inWorld (read := fun s => zextState (s.readInit l)) o (fun hv hl => ?_) e
    obtain ⟨d, hg⟩ := h.valid_has_gd hv
    rw [State.readInit_valid hv hg hl, State.readInit_valid (s := s.inWorld o) hv hg hl]
  | _ => cases e; rfl

theorem State.RegistersLegal.runWord_inWorld {w : Word} {t : State} (e : runWord w s = .next t) :
    runWord w (s.inWorld o) = .next (t.inWorld o) := by
  unfold runWord at e ⊢
  split at e
  · exact h.exec_inWorld o e
  · cases e; rfl

/-- A command is executing its word, wherever AG stands in the same registers, and the completion of what that starts. -/
theorem State.RegistersLegal.command_of_runWord {w : Word} {s₀ t : State} (hb : s₀.begin w = s.inWorld (s₀.begin w))
    (e : runWord w s = .next t) : command w s₀ = .next (t.settle.takeResponse.inWorld (s₀.begin w)) := by
  have hrun := h.runWord_inWorld (s₀.begin w) e
  rw [← hb] at hrun
  simp only [command, hrun, State.settle_inWorld, State.takeResponse_inWorld]

end InWorld

/-! ### A command and a stream of commands depend on what shows only -/

theorem State.settle_cmds (s : State) : s.settle.cmds = s.cmds := by
  unfold State.settle; split <;> rfl

theorem State.takeResponse_cmds (s : State) : s.takeResponse.cmds = s.cmds := by
  unfold State.takeResponse; split <;> rfl

theorem State.Inv.settle {s : State} (h : s.Inv) : s.settle.Inv := by
  unfold State.settle
  split
  · exact h.registersLegal.inv_finishGen
  · exact h

theorem State.Inv.takeResponse {s : State} (h : s.Inv) : s.takeResponse.Inv := by
  unfold State.takeResponse
  split
  · exact h.transfer ‹_›
  · exact h

theorem State.RegistersLegal.begin {s : State} (h : s.RegistersLegal) (w : Word) : (s.begin w).RegistersLegal :=
  ⟨h.ecode_legal, h.valid_has_gd, h.taken_legal⟩

/-- A command takes legal registers to legal ones, leaves the words that wait, and does the same to every state that shows the same. -/
theorem State.RegistersLegal.command_next {s : State} (h : s.RegistersLegal) (w : Word) :
    ∃ t, command w s = .next t ∧ t.RegistersLegal ∧
      ∀ s', s'.visible = s.visible → ∃ t', command w s' = .next t' ∧ t'.visible = t.visible := by
  obtain ⟨t, ht⟩ := runWord_next w (s.begin w)
  have hcmds : t.settle.takeResponse.cmds = s.cmds := by
    rw [State.takeResponse_cmds, State.settle_cmds, (runWord_frame ht).1, State.begin_cmds]
  have hinv := (h.begin w).inv_runWord ht
  refine ⟨t.settle.takeResponse, by simp only [command, ht], hinv.settle.takeResponse.registersLegal,
    fun s' hs' => ⟨_, (h.begin w).command_of_runWord ?_ ht, ?_⟩⟩
  · rw [State.eq_inWorld_of_visible hs']
    rfl
  · apply State.visible_inWorld
    rw [State.begin_cmds, hcmds]
    exact congrArg Visible.cmds hs'

/-- Two states that show the same stay so through a stream of commands. -/
theorem commands_visible {s s' u : State} (hs : s.RegistersLegal) (hvis : s'.visible = s.visible) {ws : List Word}
    (h : commands ws s = .next u) : ∃ u', commands ws s' = .next u' ∧ u'.visible = u.visible := by
  induction ws generalizing s s' with
  | nil =>
    cases h
    exact ⟨s', rfl, hvis⟩
  | cons w ws ih =>
    obtain ⟨t, ht, hlegal, hsame⟩ := hs.command_next w
    obtain ⟨t', ht', hvis'⟩ := hsame s' hvis
    simp only [commands, ht, ht'] at h ⊢
    exact ih hlegal hvis' h

/-! ### Each step is one command of the command level, or none -/

/-- The words that AG has not executed: the one it holds in BUSY, and those not accepted (10_state.md R32, R35). -/
def State.wordsLeft (s : State) : List Word :=
  match s.phase with
  | .busy w => w :: s.cmds
  | _ => s.cmds

/-- The state at the command level: the command that AG has executed is completed and its response taken, and the words not
executed are outside (00_scope.md R11). -/
def State.atBoundary (s : State) : State := { s.settle.takeResponse with phase := .idle, cmds := [] }

section Boundary

variable {s : State}

theorem State.wordsLeft_idle (h : s.phase = .idle) : s.wordsLeft = s.cmds := by
  simp [State.wordsLeft, h]

theorem State.wordsLeft_busy {w : Word} (h : s.phase = .busy w) : s.wordsLeft = w :: s.cmds := by
  simp [State.wordsLeft, h]

theorem State.wordsLeft_generating {k : BitVec 15} (h : s.phase = .generating k) : s.wordsLeft = s.cmds := by
  simp [State.wordsLeft, h]

theorem State.wordsLeft_respond {r : Response} (h : s.phase = .respond r) : s.wordsLeft = s.cmds := by
  simp [State.wordsLeft, h]

theorem State.atBoundary_idle (h : s.phase = .idle) : s.atBoundary = { s with phase := .idle, cmds := [] } := by
  simp [State.atBoundary, State.settle, State.takeResponse, h]

theorem State.atBoundary_busy {w : Word} (h : s.phase = .busy w) : s.atBoundary = { s with phase := .idle, cmds := [] } := by
  simp [State.atBoundary, State.settle, State.takeResponse, h]

theorem State.atBoundary_generating {k : BitVec 15} (h : s.phase = .generating k) :
    s.atBoundary = { s.finishGen.transfer ⟨false, 0⟩ with cmds := [] } := by
  simp [State.atBoundary, State.settle, State.takeResponse, h, State.transfer]

theorem State.atBoundary_respond {r : Response} (h : s.phase = .respond r) :
    s.atBoundary = { s.transfer r with cmds := [] } := by
  simp [State.atBoundary, State.settle, State.takeResponse, h, State.transfer]

theorem State.Inv.atBoundary (h : s.Inv) : s.atBoundary.RegistersLegal :=
  let hs := h.settle.takeResponse
  ⟨hs.ecode_legal, hs.valid_has_gd, hs.taken_legal⟩

/-- After a word has been executed, completion leaves AG idle. -/
theorem completed_phase_of_runWord {w : Word} {b t : State} (h : runWord w b = .next t) :
    t.settle.takeResponse.phase = .idle := by
  obtain ⟨r, hp⟩ | hp := runWord_phase h
  · simp [State.settle, State.takeResponse, hp]
  · simp [State.settle, State.takeResponse, hp]

theorem wordsLeft_of_runWord {w : Word} {b t : State} (h : runWord w b = .next t) : t.wordsLeft = t.cmds := by
  obtain ⟨r, hp⟩ | hp := runWord_phase h
  · exact State.wordsLeft_respond hp
  · exact State.wordsLeft_generating hp

theorem State.ExecutesFrom.wordsLeft {w : Word} {b : State} (h : s.ExecutesFrom w b) : s.wordsLeft = w :: b.cmds := by
  obtain ⟨hp, hc⟩ | ⟨hp, hc⟩ := h.source
  · rw [State.wordsLeft_busy hp, hc]
  · rw [State.wordsLeft_idle hp, hc]

/-- A step executes its word in the registers in which the command level does. -/
theorem State.ExecutesFrom.begin_atBoundary {w : Word} {b : State} (h : s.ExecutesFrom w b) :
    s.atBoundary.begin w = b.inWorld (s.atBoundary.begin w) := by
  cases h with
  | accepted hp hw =>
    rw [State.atBoundary_idle hp]
    rfl
  | held hp =>
    rw [State.atBoundary_busy hp]
    simp [State.begin, State.inWorld, State.advanceTick, hp]

/-- Executing a word in a step is the command of that word at the command level. -/
theorem State.ExecutesFrom.command_atBoundary {w : Word} {b t : State} (h : s.ExecutesFrom w b) (hs : s.RegistersLegal)
    (hrun : runWord w b = .next t) :
    ∃ u, command w s.atBoundary = .next u ∧ u.visible = t.atBoundary.visible := by
  refine ⟨_, (hs.of_executesFrom h).command_of_runWord h.begin_atBoundary hrun, ?_⟩
  simp [State.visible, State.inWorld, State.atBoundary, completed_phase_of_runWord hrun]

/-- The ticks and the draws are nothing of the command level. -/
theorem State.advanceTick_atBoundary (s : State) : s.advanceTick.atBoundary.visible = s.atBoundary.visible := by
  cases hp : s.phase with
  | idle => rw [State.atBoundary_idle hp, State.atBoundary_idle (s := s.advanceTick) hp]; rfl
  | busy w => rw [State.atBoundary_busy hp, State.atBoundary_busy (s := s.advanceTick) hp]; rfl
  | generating k => rw [State.atBoundary_generating hp, State.atBoundary_generating (s := s.advanceTick) hp]; rfl
  | respond r => rw [State.atBoundary_respond hp, State.atBoundary_respond (s := s.advanceTick) hp]; rfl

/-- The sequencer's progress is nothing of the command level, which has a GEN completed (42_generate.md R132). -/
theorem State.advanceGen_atBoundary {k : BitVec 15} (h : s.phase = .generating k) (n : Nat) :
    (s.advanceGen k n).wordsLeft = s.wordsLeft ∧ (s.advanceGen k n).atBoundary = s.atBoundary := by
  rw [State.wordsLeft_generating h, State.atBoundary_generating h]
  obtain ⟨_, e⟩ | ⟨_, e⟩ := s.advanceGen_cases k n
  · rw [e]
    exact ⟨State.wordsLeft_generating rfl, State.atBoundary_generating rfl⟩
  · rw [e]
    exact ⟨State.wordsLeft_respond rfl, State.atBoundary_respond rfl⟩

theorem State.transfer_atBoundary {r : Response} (h : s.phase = .respond r) :
    (s.transfer r).wordsLeft = s.wordsLeft ∧ (s.transfer r).atBoundary = s.atBoundary := by
  rw [State.wordsLeft_respond h, State.atBoundary_respond h]
  exact ⟨State.wordsLeft_idle rfl, State.atBoundary_idle rfl⟩

/-- A step without reset executes no word and changes nothing at the command level, or executes one, as the command level does. -/
theorem step_simulates {t : State} (hs : s.RegistersLegal) (hr : s.tick.rst = false) (h : step s = .next t) :
    (t.wordsLeft = s.wordsLeft ∧ t.atBoundary.visible = s.atBoundary.visible) ∨
    (∃ w u, s.wordsLeft = w :: t.wordsLeft ∧ command w s.atBoundary = .next u ∧ u.visible = t.atBoundary.visible) := by
  have htick := s.advanceTick_atBoundary
  obtain ⟨hr', _⟩ | ⟨_, ⟨w, b, _, hb, hrun⟩ | ⟨w, _, _, hp, hw, rfl⟩ | ⟨k, _, hp, rfl⟩ | ⟨r, _, hp, _, rfl⟩ | ⟨_, _, rfl⟩⟩ :=
    step_cases h
  · simp [hr] at hr'
  · obtain ⟨u, hu, hvis⟩ := hb.command_atBoundary hs hrun
    refine .inr ⟨w, u, ?_, hu, hvis⟩
    rw [hb.wordsLeft, wordsLeft_of_runWord hrun, (runWord_frame hrun).1]
  · refine .inl ⟨?_, ?_⟩
    · rw [State.wordsLeft_busy rfl, State.wordsLeft_idle hp, cmds_of_presented hw]
      rfl
    · rw [State.atBoundary_busy rfl, State.atBoundary_idle hp]
      rfl
  · obtain ⟨hwords, hbound⟩ := State.advanceGen_atBoundary (s := s.advanceTick) hp s.tick.seqSteps
    exact .inl ⟨hwords, hbound ▸ htick⟩
  · obtain ⟨hwords, hbound⟩ := State.transfer_atBoundary (s := s.advanceTick) hp
    exact .inl ⟨hwords, hbound ▸ htick⟩
  · exact .inl ⟨rfl, htick⟩

end Boundary

/-! ### Every word is executed in the end -/

/-- What the refinement asks of a state and every step keeps: legal registers, no reset to come, and a master that goes on. -/
structure State.Served (s : State) : Prop where
  inv : s.Inv
  noReset : s.NoReset
  masterGoesOn : s.MasterGoesOn

theorem State.NoReset.tick {s : State} (h : s.NoReset) : s.tick.rst = false := by
  obtain ⟨hsched, hrest⟩ := h
  unfold State.tick
  cases hc : s.sched with
  | nil => exact hrest
  | cons t ts => exact hsched t (by simp [hc])

/-- A step uses up one tick and leaves what follows the schedule. -/
theorem step_sched {s t : State} (h : step s = .next t) : t.sched = s.sched.tail ∧ t.rest = s.rest := by
  obtain ⟨_, rfl⟩ | ⟨_, ⟨w, b, _, hb, hrun⟩ | ⟨w, _, _, _, _, rfl⟩ | ⟨k, _, _, rfl⟩ | ⟨r, _, _, _, rfl⟩ | ⟨_, _, rfl⟩⟩ :=
    step_cases h
  · exact ⟨rfl, rfl⟩
  · obtain ⟨_, _, hsched, hrest, _⟩ := runWord_frame hrun
    rw [hsched, hrest]
    cases hb <;> exact ⟨rfl, rfl⟩
  · exact ⟨rfl, rfl⟩
  · obtain ⟨_, e⟩ | ⟨_, e⟩ := s.advanceTick.advanceGen_cases k s.tick.seqSteps <;> rw [e] <;> exact ⟨rfl, rfl⟩
  · exact ⟨rfl, rfl⟩
  · exact ⟨rfl, rfl⟩

theorem State.Served.of_step {s t : State} (hs : s.Served) (h : step s = .next t) : t.Served := by
  obtain ⟨hinv, ⟨hsched, hrest⟩, hmaster⟩ := hs
  obtain ⟨hst, hrt⟩ := step_sched h
  refine ⟨everyStepKeepsTheInvariant s t hinv h, ⟨fun x hx => hsched x ?_, hrt ▸ hrest⟩, ?_⟩
  · exact List.mem_of_mem_tail (hst ▸ hx)
  · unfold State.MasterGoesOn
    exact hrt ▸ hmaster

/-- Some number of steps executes every word and ends idle, in what the command level makes of the same words, each word and each
command in AG having had its response. -/
def State.EndsAsCommanded (s : State) : Prop :=
  ∃ n t u, Host.Core.run Sys2Proof.core n s = .next t ∧ commands s.wordsLeft s.atBoundary = .next u ∧
    t.visible = u.visible ∧ t.cmds = [] ∧ t.phase = .idle ∧ t.taken.length = s.taken.length + s.owed + s.cmds.length

/-- An idle AG without words is there. -/
theorem State.endsAsCommanded_of_done {s : State} (hp : s.phase = .idle) (hc : s.cmds = []) : s.EndsAsCommanded := by
  refine ⟨0, s, s.atBoundary, run_zero s, ?_, ?_, hc, hp, ?_⟩
  · rw [State.wordsLeft_idle hp, hc]
    rfl
  · rw [State.atBoundary_idle hp]
    simp [State.visible, hp, hc]
  · rw [State.owed_idle hp, hc]
    rfl

/-- Where a step leads to a state that ends so, it starts from one. -/
theorem State.Served.endsAsCommanded_of_step {s t : State} (hs : s.Served) (h : step s = .next t)
    (ht : t.EndsAsCommanded) : s.EndsAsCommanded := by
  obtain ⟨n, v, u, hrun, hu, hvu, hc, hp, hlen⟩ := ht
  have hr := hs.noReset.tick
  suffices hcmd : ∃ u', commands s.wordsLeft s.atBoundary = .next u' ∧ u'.visible = u.visible by
    obtain ⟨u', hu', hvis⟩ := hcmd
    obtain ⟨hsum, _⟩ := oneResponsePerCommand s t h hr
    exact ⟨n + 1, v, u', (run_succ h n).trans hrun, hu', hvu.trans hvis.symm, hc, hp, hlen.trans hsum⟩
  have hlegal := (hs.of_step h).inv.atBoundary
  obtain ⟨hwords, hvis⟩ | ⟨w, t', hwords, hcommand, hvis⟩ := step_simulates hs.inv.registersLegal hr h
  · rw [← hwords]
    exact commands_visible hlegal hvis.symm hu
  · simp only [hwords, commands, hcommand]
    exact commands_visible hlegal hvis hu

/-- An upper bound on the steps that AG has before it once every tick is the default one. -/
def State.work (s : State) : Nat :=
  4 * s.cmds.length + match s.phase with
    | .idle => 0
    | .respond _ => 1
    | .generating _ => 2
    | .busy _ => 3

theorem State.work_of_runWord {w : Word} {s t : State} (h : runWord w s = .next t) : t.work ≤ 4 * s.cmds.length + 2 := by
  rw [← (runWord_frame h).1]
  obtain ⟨r, hp⟩ | hp := runWord_phase h <;> simp [State.work, hp]

/-- Once every tick is the default one, a step brings AG nearer to its end: the master presents and takes, and AG's own work is
done in the step (70_reset_and_hazards.md R241). -/
theorem State.Served.step_works {s : State} (hs : s.Served) (hn : s.sched = []) (hdone : ¬(s.phase = .idle ∧ s.cmds = [])) :
    ∃ t, step s = .next t ∧ t.work < s.work := by
  have hr := hs.noReset.tick
  obtain ⟨hpresents, htakes⟩ := hs.masterGoesOn
  have ht := State.tick_rest hn
  have hruns (w : Word) : s.tick.runs w = true := Tick.runs_iff.mpr (.inl (by rw [ht]))
  cases hp : s.phase with
  | idle =>
    cases hc : s.cmds with
    | nil => exact absurd ⟨hp, hc⟩ hdone
    | cons w ws =>
      have hstep := (step_executes hr (hruns w)).1 ws hp (by rw [ht]; exact hpresents) hc
      obtain ⟨t, hrun⟩ := runWord_next w { s with phase := .busy w, cmds := ws, sched := s.sched.tail, draw := s.draw + 1 }
      have hwork := State.work_of_runWord hrun
      refine ⟨t, hstep.trans hrun, ?_⟩
      simp only [State.work, hp, hc, List.length_cons] at hwork ⊢
      omega
  | busy w =>
    have hstep := (step_executes hr (hruns w)).2 hp
    obtain ⟨t, hrun⟩ := runWord_next w { s with sched := s.sched.tail, draw := s.draw + 1 }
    have hwork := State.work_of_runWord hrun
    refine ⟨t, hstep.trans hrun, ?_⟩
    simp only [State.work, hp] at hwork ⊢
    omega
  | generating k =>
    refine ⟨_, step_generating hr hp, ?_⟩
    have hsteps : s.tick.seqSteps = Config.genSteps := by rw [ht]
    obtain ⟨hk, _⟩ | ⟨_, e⟩ := s.advanceTick.advanceGen_cases k s.tick.seqSteps
    · omega
    · rw [e]
      simp [State.work, hp]
  | respond r =>
    refine ⟨_, step_respond_taken hr hp (by rw [ht]; exact htakes), ?_⟩
    simp [State.work, hp]

/-- Every step has a next state (60_exceptions.md R200). -/
theorem step_next (s : State) : ∃ t, step s = .next t := by
  cases hr : s.tick.rst with
  | true => exact ⟨_, step_reset hr⟩
  | false =>
    have hbusy (w : Word) (b : State) : ∃ t, busyStep s.tick w b = .next t := by
      cases h : s.tick.runs w with
      | true => exact busyStep_runs h b ▸ runWord_next w b
      | false => exact ⟨b, busyStep_waits h b⟩
    cases hp : s.phase with
    | idle =>
      cases hw : presented s.tick s with
      | none => exact ⟨_, step_idle_waiting hr hp hw⟩
      | some w => exact step_presented hr hp hw ▸ hbusy w _
    | busy w => exact step_busy hr hp ▸ hbusy w _
    | generating k => exact ⟨_, step_generating hr hp⟩
    | respond r =>
      cases hy : s.tick.rspReady with
      | true => exact ⟨_, step_respond_taken hr hp hy⟩
      | false => exact ⟨_, step_respond_held hr hp hy⟩

/-- After the schedule, by induction on the work left. -/
theorem State.Served.endsAsCommanded_of_sched_nil {s : State} (hs : s.Served) (hn : s.sched = []) : s.EndsAsCommanded := by
  induction hm : s.work using Nat.strong_induction_on generalizing s with
  | _ m ih =>
    by_cases hdone : s.phase = .idle ∧ s.cmds = []
    · exact State.endsAsCommanded_of_done hdone.1 hdone.2
    · obtain ⟨t, ht, hlt⟩ := hs.step_works hn hdone
      have htn : t.sched = [] := by rw [(step_sched ht).1, hn]; rfl
      exact hs.endsAsCommanded_of_step ht (ih t.work (hm ▸ hlt) (hs.of_step ht) htn rfl)

/-- Whatever the schedule, by induction on its ticks. -/
theorem State.Served.endsAsCommanded {s : State} (hs : s.Served) : s.EndsAsCommanded := by
  induction hn : s.sched generalizing s with
  | nil => exact hs.endsAsCommanded_of_sched_nil hn
  | cons x xs ih =>
    obtain ⟨t, ht⟩ := step_next s
    have htn : t.sched = xs := by rw [(step_sched ht).1, hn]; rfl
    exact hs.endsAsCommanded_of_step ht (ih (hs.of_step ht) htn)

/-- Settles O43: each step is one command of the command level or none, and every word is executed in the end. -/
theorem timingNeverChangesTheResult : Obligations.TimingNeverChangesTheResult := by
  intro s hinv hreset hmaster hp
  obtain ⟨n, t, u, hrun, hu, hvis, hc, hidle, hlen⟩ := State.Served.endsAsCommanded ⟨hinv, hreset, hmaster⟩
  rw [State.wordsLeft_idle hp, State.atBoundary_idle hp, ← hp] at hu
  rw [State.owed_idle hp] at hlen
  exact ⟨n, t, u, hrun, hu, hvis, hc, hidle, hlen⟩

end Sys2Proof.Machine

/-! PROOFS. The statements about the encoding (30_encoding.md): the words of the formats, the rows of the opcode map, the decoder
against both, the causes of an error in their order, and the assembler's operands. -/

namespace Sys2Proof

/-! ### The fields of a format's word (30_encoding.md R71, R73) -/

section FormatFields

variable (o : BitVec 4) (imm : Half) (l : LayerNo) (s : StateNo) (c : Byte)

@[simp] theorem immField_wordI : immField (wordI o imm) = imm := by
  have := imm.isLt
  apply BitVec.eq_of_toNat_eq
  rw [Laws.immField_toNat, Laws.wordI_toNat]
  omega

@[simp] theorem layerField_wordT : layerField (wordT o l s c) = l := by
  have := l.isLt; have := s.isLt; have := c.isLt
  apply BitVec.eq_of_toNat_eq
  rw [Laws.layerField_toNat, Laws.wordT_toNat]
  omega

@[simp] theorem stateField_wordT : stateField (wordT o l s c) = s := by
  have := s.isLt; have := c.isLt
  apply BitVec.eq_of_toNat_eq
  rw [Laws.stateField_toNat, Laws.wordT_toNat]
  omega

@[simp] theorem symField_wordT : symField (wordT o l s c) = c := by
  have := c.isLt
  apply BitVec.eq_of_toNat_eq
  rw [Laws.symField_toNat, Laws.wordT_toNat]
  omega

/-! Formats O and Y are format T with the fields they lack at 0. -/

theorem wordO_eq_wordT : wordO o l s = wordT o l s 0 := by
  apply BitVec.eq_of_toNat_eq
  simp [Laws.wordO_toNat, Laws.wordT_toNat]

theorem wordY_eq_wordT : wordY o l = wordT o l 0 0 := by
  apply BitVec.eq_of_toNat_eq
  simp [Laws.wordY_toNat, Laws.wordT_toNat]

@[simp] theorem layerField_wordO : layerField (wordO o l s) = l := by rw [wordO_eq_wordT, layerField_wordT]

@[simp] theorem stateField_wordO : stateField (wordO o l s) = s := by rw [wordO_eq_wordT, stateField_wordT]

@[simp] theorem layerField_wordY : layerField (wordY o l) = l := by rw [wordY_eq_wordT, layerField_wordT]

@[simp] theorem opcField_wordN : opcField (wordN o) = o := by
  have := o.isLt
  apply BitVec.eq_of_toNat_eq
  rw [Laws.opcField_toNat, Laws.wordN_toNat]
  omega

end FormatFields

/-! ### A word is its opcode, its fields and its reserved bits (30_encoding.md R71, R77) -/

section Reserved

variable {w : Word}

theorem and_rsvdN : w &&& 0x0FFFFFFF = 0 ↔ w.extractLsb' 0 28 = 0 := Laws.and_ones_eq_zero w 0 28 (by decide)

theorem and_rsvdI : w &&& 0x0FFF0000 = 0 ↔ w.extractLsb' 16 12 = 0 := Laws.and_ones_eq_zero w 16 12 (by decide)

theorem and_rsvdT : w &&& 0x00001FFF = 0 ↔ w.extractLsb' 0 13 = 0 := Laws.and_ones_eq_zero w 0 13 (by decide)

theorem and_rsvdO : w &&& 0x001FFFFF = 0 ↔ w.extractLsb' 0 21 = 0 := Laws.and_ones_eq_zero w 0 21 (by decide)

theorem and_rsvdY : w &&& 0x03FFFFFF = 0 ↔ w.extractLsb' 0 26 = 0 := Laws.and_ones_eq_zero w 0 26 (by decide)

/-- A field that is 0, as a number. -/
theorem field_eq_zero {lo n : Nat} (h : w.extractLsb' lo n = 0) : w.toNat / 2 ^ lo % 2 ^ n = 0 := by
  rw [← Laws.extract_toNat, h]
  simp

variable {o : BitVec 4} (ho : opcField w = o)

include ho

theorem wordN_of_fields (hr : w.extractLsb' 0 28 = 0) : wordN o = w := by
  have := w.isLt; have := field_eq_zero hr
  subst ho
  apply BitVec.eq_of_toNat_eq
  rw [Laws.wordN_toNat, Laws.opcField_toNat]
  omega

theorem wordI_of_fields (hr : w.extractLsb' 16 12 = 0) : wordI o (immField w) = w := by
  have := w.isLt; have := field_eq_zero hr
  subst ho
  apply BitVec.eq_of_toNat_eq
  rw [Laws.wordI_toNat, Laws.opcField_toNat, Laws.immField_toNat]
  omega

theorem wordT_of_fields (hr : w.extractLsb' 0 13 = 0) : wordT o (layerField w) (stateField w) (symField w) = w := by
  have := w.isLt; have := field_eq_zero hr
  subst ho
  apply BitVec.eq_of_toNat_eq
  rw [Laws.wordT_toNat, Laws.opcField_toNat, Laws.layerField_toNat, Laws.stateField_toNat, Laws.symField_toNat]
  omega

theorem wordO_of_fields (hr : w.extractLsb' 0 21 = 0) : wordO o (layerField w) (stateField w) = w := by
  have := w.isLt; have := field_eq_zero hr
  subst ho
  apply BitVec.eq_of_toNat_eq
  rw [Laws.wordO_toNat, Laws.opcField_toNat, Laws.layerField_toNat, Laws.stateField_toNat]
  omega

theorem wordY_of_fields (hr : w.extractLsb' 0 26 = 0) : wordY o (layerField w) = w := by
  have := w.isLt; have := field_eq_zero hr
  subst ho
  apply BitVec.eq_of_toNat_eq
  rw [Laws.wordY_toNat, Laws.opcField_toNat, Laws.layerField_toNat]
  omega

end Reserved

/-! ### The rows of the opcode map, by opcode (30_encoding.md R75) -/

/-- The opcode of a command. -/
def Instr.opcode : Instr → BitVec 4
  | .nop => 0x0
  | .ldlo _ => 0x1
  | .ldhi _ => 0x2
  | .gen => 0x3
  | .rdtr _ _ _ => 0x4
  | .rdout _ _ => 0x5
  | .rdinit _ => 0x6
  | .rdstat => 0x7
  | .rddig => 0x8
  | .clrerr => 0x9

/-- The row that fixes the opcode `o` and sets the reserved bits of its format to 0. -/
def opRow (o : BitVec 4) : OpRow := ⟨wordN 0xF ||| rsvdMask o, wordN o⟩

theorem Instr.row_eq (i : Instr) : i.row = opRow i.opcode := by
  cases i <;> simp only [Instr.row, Instr.opcode] <;> decide

/-- The rows of the map are those of the legal opcodes (30_encoding.md R76). -/
theorem mem_opcodeMap {r : OpRow} : r ∈ opcodeMap ↔ ∃ o : BitVec 4, o < 0xA ∧ r = opRow o := by
  constructor
  · have hrows : ∀ r ∈ opcodeMap, ∃ o : BitVec 4, o < 0xA ∧ r = opRow o := by decide
    exact hrows r
  · rintro ⟨o, ho, rfl⟩
    revert o
    decide

/-- The mask of the opcode field keeps the opcode of a word and nothing else. -/
theorem and_opcMask (w : Word) : w &&& wordN 0xF = wordN (opcField w) := by
  have hw : opcField w ++ w.extractLsb' 0 28 = w := by
    have := w.isLt
    apply BitVec.eq_of_toNat_eq
    rw [Laws.toNat_concat, Laws.opcField_toNat, Laws.extract_toNat]
    omega
  calc w &&& wordN 0xF = (opcField w ++ w.extractLsb' 0 28) &&& (0xF#4 ++ 0#28) := by rw [hw]; rfl
    _ = wordN (opcField w) := by rw [BitVec.and_append]; simp [wordN, Laws.and_fifteen]

/-! The mask of a row is made of two parts, the opcode field and the reserved bits, and its pattern lies in the first. -/

theorem rowMask_and_opcMask (o : BitVec 4) : (wordN 0xF ||| rsvdMask o) &&& wordN 0xF = wordN 0xF := by decide +revert

theorem rowMask_and_rsvdMask (o : BitVec 4) : (wordN 0xF ||| rsvdMask o) &&& rsvdMask o = rsvdMask o := by decide +revert

theorem wordN_and_rsvdMask (o : BitVec 4) : wordN o &&& rsvdMask o = 0 := by decide +revert

/-- A row selects the words of its opcode that have no reserved bit set (30_encoding.md R75, R77). -/
theorem opRow_selects {o : BitVec 4} {w : Word} :
    (opRow o).selects w = true ↔ opcField w = o ∧ w &&& rsvdMask o = 0 := by
  rw [OpRow.selects, beq_iff_eq, opRow]
  constructor
  · intro h
    have hopc : wordN (opcField w) = wordN o := by
      rw [← and_opcMask w, ← rowMask_and_opcMask o, ← BitVec.and_assoc, h, and_opcMask, opcField_wordN]
    have hrsvd : w &&& rsvdMask o = 0 := by
      rw [← rowMask_and_rsvdMask o, ← BitVec.and_assoc, h, wordN_and_rsvdMask]
    exact ⟨by rw [← opcField_wordN (opcField w), hopc, opcField_wordN], hrsvd⟩
  · rintro ⟨rfl, hrsvd⟩
    rw [BitVec.and_or_distrib_left, and_opcMask, hrsvd]
    simp

theorem opRow_inj {o o' : BitVec 4} : opRow o = opRow o' ↔ o = o' := by
  refine ⟨fun h => ?_, fun h => by rw [h]⟩
  have hpattern : wordN o = wordN o' := congrArg OpRow.pattern h
  rw [← opcField_wordN o, hpattern, opcField_wordN]

/-! ### Decoding by opcode and reserved bits (30_encoding.md R75 to R78) -/

section Decode

variable {w : Word} {i : Instr}

theorem instrOf_isSome : (instrOf w).isSome = true ↔ opcField w < 0xA := by
  have hlt : opcField w < 0xA ↔ (opcField w).toNat < 10 := BitVec.lt_def
  rw [hlt, instrOf]
  split <;> simp only [Option.isSome_some, Option.isSome_none, Bool.false_eq_true, true_iff, false_iff, imp_false] at * <;> omega

/-- The command of a word has the word's opcode. -/
theorem opcode_of_instrOf (h : instrOf w = some i) : i.opcode = opcField w := by
  apply BitVec.eq_of_toNat_eq
  unfold instrOf at h
  split at h <;> cases h <;> symm <;> assumption

theorem decode_eq_ok : decode w = .ok i ↔ instrOf w = some i ∧ w &&& rsvdMask (opcField w) = 0 := by
  unfold decode
  cases instrOf w with
  | none => simp
  | some j =>
    by_cases hr : w &&& rsvdMask (opcField w) = 0
    · simp [hr]
    · simp only [ne_eq, hr, not_false_eq_true, if_true, reduceCtorEq, and_false]

theorem decode_illegalOpcode (h : 0xA ≤ opcField w) : decode w = .error .illegalOpcode := by
  have hnone : instrOf w = none := by
    rw [← Option.not_isSome_iff_eq_none, instrOf_isSome]
    exact BitVec.not_lt.mpr h
  rw [decode, hnone]

theorem decode_rsvdNonzero (h : opcField w < 0xA) (hr : w &&& rsvdMask (opcField w) ≠ 0) :
    decode w = .error .rsvdNonzero := by
  obtain ⟨j, hj⟩ := Option.isSome_iff_exists.mp (instrOf_isSome.mpr h)
  rw [decode, hj]
  exact if_pos hr

/-- A word is a command exactly where neither decode error applies. -/
theorem exists_decode_eq_ok : (∃ i, decode w = .ok i) ↔ opcField w < 0xA ∧ w &&& rsvdMask (opcField w) = 0 := by
  simp only [decode_eq_ok, exists_and_right, ← instrOf_isSome, Option.isSome_iff_exists]

end Decode

/-! ### The decoder and the encoder are inverse to each other -/

/-- The encoder's word has the opcode of its command and no reserved bit set, as its row selects it. -/
theorem row_selects_encode (i : Instr) : i.row.selects (encode i) = true := by
  cases i with
  | nop => exact Laws.RowMatch.nop
  | ldlo imm => exact Laws.RowMatch.ldlo imm
  | ldhi imm => exact Laws.RowMatch.ldhi imm
  | gen => exact Laws.RowMatch.gen
  | rdtr l s c => exact Laws.RowMatch.rdtr l s c
  | rdout l s => exact Laws.RowMatch.rdout l s
  | rdinit l => exact Laws.RowMatch.rdinit l
  | rdstat => exact Laws.RowMatch.rdstat
  | rddig => exact Laws.RowMatch.rddig
  | clrerr => exact Laws.RowMatch.clrerr

/-- The opcode map gives an encoded command back from its opcode and its fields. -/
theorem instrOf_encode {i : Instr} (ho : opcField (encode i) = i.opcode) : instrOf (encode i) = some i := by
  rw [instrOf, ho]
  cases i <;> simp [Instr.opcode, encode]

/-- Settles O1: the row of the command selects its word, and the fields of the word are the operands. -/
theorem decodeOfEncodeIsTheCommand : Obligations.DecodeOfEncodeIsTheCommand := by
  intro i
  have hsel := row_selects_encode i
  rw [Instr.row_eq, opRow_selects] at hsel
  obtain ⟨ho, hr⟩ := hsel
  exact decode_eq_ok.mpr ⟨instrOf_encode ho, ho ▸ hr⟩

/-- Settles O2: with its reserved bits 0 a word is made of its opcode and the operands of its command, format by format. -/
theorem encodeOfDecodedWordIsTheWord : Obligations.EncodeOfDecodedWordIsTheWord := by
  intro w i h
  obtain ⟨hi, hr⟩ := decode_eq_ok.mp h
  have ho : opcField w = i.opcode := (opcode_of_instrOf hi).symm
  rw [ho] at hr
  rw [instrOf, ho] at hi
  cases i with
  | nop => exact wordN_of_fields ho (and_rsvdN.mp hr)
  | ldlo imm => cases hi; exact wordI_of_fields ho (and_rsvdI.mp hr)
  | ldhi imm => cases hi; exact wordI_of_fields ho (and_rsvdI.mp hr)
  | gen => exact wordN_of_fields ho (and_rsvdN.mp hr)
  | rdtr l s c => cases hi; exact wordT_of_fields ho (and_rsvdT.mp hr)
  | rdout l s => cases hi; exact wordO_of_fields ho (and_rsvdO.mp hr)
  | rdinit l => cases hi; exact wordY_of_fields ho (and_rsvdY.mp hr)
  | rdstat => exact wordN_of_fields ho (and_rsvdN.mp hr)
  | rddig => exact wordN_of_fields ho (and_rsvdN.mp hr)
  | clrerr => exact wordN_of_fields ho (and_rsvdN.mp hr)

/-- Settles O3: the rows are those of the legal opcodes, and each selects the words of its opcode with no reserved bit set. -/
theorem decodeFollowsTheOpcodeMap : Obligations.DecodeFollowsTheOpcodeMap := by
  intro w
  constructor
  · rw [exists_decode_eq_ok]
    constructor
    · rintro ⟨ho, hr⟩
      exact ⟨opRow (opcField w), mem_opcodeMap.mpr ⟨_, ho, rfl⟩, opRow_selects.mpr ⟨rfl, hr⟩⟩
    · rintro ⟨r, hrow, hsel⟩
      obtain ⟨o, ho, rfl⟩ := mem_opcodeMap.mp hrow
      obtain ⟨rfl, hr⟩ := opRow_selects.mp hsel
      exact ⟨ho, hr⟩
  · intro i h r hrow
    obtain ⟨hi, hr⟩ := decode_eq_ok.mp h
    obtain ⟨o, _, rfl⟩ := mem_opcodeMap.mp hrow
    rw [opRow_selects, Instr.row_eq, opcode_of_instrOf hi, opRow_inj]
    constructor
    · rintro ⟨ho, _⟩
      exact ho.symm
    · rintro rfl
      exact ⟨rfl, hr⟩

/-- A word is the command it encodes: O1 and O2 together. -/
theorem decode_eq_ok_iff_encode {w : Word} {i : Instr} : decode w = .ok i ↔ encode i = w :=
  ⟨encodeOfDecodedWordIsTheWord w i, fun h => h ▸ decodeOfEncodeIsTheCommand i⟩

/-- Settles O5: each word is the encoding of its command. -/
theorem sampleWordsDecode : Obligations.SampleWordsDecode := by
  refine ⟨?_, ?_, ?_, ?_, ?_, ?_, ?_⟩ <;> rw [decode_eq_ok_iff_encode] <;> decide

/-! ### The operands of an assembler statement (30_encoding.md R79, R80) -/

theorem Source.commands_eq_none {x : Source} : x.commands = none ↔ x.wellFormed = false := by
  unfold Source.commands
  cases x.wellFormed <;> simp

/-- A command is read back from its own statement, whose operands all fit. -/
theorem Instr.commands_toSource (i : Instr) : i.toSource.commands = some [i] := by
  have hfits : i.toSource.wellFormed = true := Laws.Instr.wellFormed_eq_true i
  unfold Source.commands
  rw [if_pos hfits]
  cases i <;> simp [Instr.toSource]

/-- LDDIG of a digest is LDLO of its low half, then LDHI of its high half (30_encoding.md R80). -/
theorem Source.commands_lddig (d : Digest) :
    (Source.lddig d.toNat).commands = some [.ldlo (d.extractLsb' 0 16), .ldhi (d.extractLsb' 16 16)] := by
  have hd := d.isLt
  have hfits : (Source.lddig d.toNat).wellFormed = true := by
    simp only [Source.wellFormed, decide_eq_true_eq]
    omega
  have hlo : BitVec.ofNat 16 (d.toNat % 0x10000) = d.extractLsb' 0 16 := by
    apply BitVec.eq_of_toNat_eq
    rw [BitVec.toNat_ofNat, Laws.extract_toNat]
    omega
  have hhi : BitVec.ofNat 16 (d.toNat / 0x10000) = d.extractLsb' 16 16 := by
    apply BitVec.eq_of_toNat_eq
    rw [BitVec.toNat_ofNat, Laws.extract_toNat]
    omega
  rw [Source.commands, if_pos hfits, hlo, hhi]

/-- Settles O6: a statement has no commands exactly where it is not well formed, and a command's statement is. -/
theorem assemblerRefusesExactlyWhatDoesNotFit : Obligations.AssemblerRefusesExactlyWhatDoesNotFit := by
  refine ⟨fun i l s c => ?_, Instr.commands_toSource⟩
  simp only [Source.commands_eq_none, Source.wellFormed, Bool.and_eq_false_iff, decide_eq_false_iff_not, not_le, or_assoc,
    and_self]

/-! ### The layer a command reads (30_encoding.md R74, R78) -/

/-- The LAYER operand of a command that reads a table; none for any other command. -/
def Instr.tableLayer : Instr → Option LayerNo
  | .rdtr l _ _ => some l
  | .rdout l _ => some l
  | .rdinit l => some l
  | _ => none

/-- A word reads a table exactly where its opcode is 4, 5 or 6, and then of the layer in its LAYER field. -/
theorem tableLayer_eq_some {w : Word} {i : Instr} (h : decode w = .ok i) {l : LayerNo} :
    i.tableLayer = some l ↔ (opcField w = 4 ∨ opcField w = 5 ∨ opcField w = 6) ∧ layerField w = l := by
  obtain ⟨hi, _⟩ := decode_eq_ok.mp h
  have ho : opcField w = i.opcode := (opcode_of_instrOf hi).symm
  rw [instrOf, ho] at hi
  rw [ho]
  cases i <;> cases hi <;> simp [Instr.tableLayer, Instr.opcode]

namespace Machine

section TableReads

variable {i : Instr} {l : LayerNo} {s : State}

theorem exec_eq_tableRead (h : i.tableLayer = some l) (s : State) : ∃ read, exec i s = tableRead l read s := by
  cases i with
  | rdtr _ st c => cases h; exact ⟨fun s => zextState (s.readTrans l st c), rfl⟩
  | rdout _ st => cases h; exact ⟨fun s => zextByte (s.readOut l st), rfl⟩
  | rdinit => cases h; exact ⟨fun s => zextState (s.readInit l), rfl⟩
  | _ => cases h

theorem exec_layerRange (h : i.tableLayer = some noLayer) : exec i s = .next (s.endedInError 0x03) := by
  obtain ⟨read, e⟩ := exec_eq_tableRead h s
  rw [e, tableRead, if_pos rfl]
  rfl

theorem exec_notValid (h : i.tableLayer = some l) (hl : l ≠ noLayer) (hv : s.valid = false) :
    exec i s = .next (s.endedInError 0x04) := by
  obtain ⟨read, e⟩ := exec_eq_tableRead h s
  rw [e, tableRead, if_neg hl, if_pos hv]
  rfl

/-- A command responds without error unless it reads a table whose layer does not exist or holds no value. -/
theorem exec_without_error {t : State} {r : Response} (e : exec i s = .next t)
    (hread : ∀ l, i.tableLayer = some l → l ≠ noLayer ∧ s.valid = true) (hr : t.phase = .respond r) : r.err = false := by
  cases hl : i.tableLayer with
  | some l =>
    obtain ⟨hlayer, hv⟩ := hread l hl
    obtain ⟨read, e'⟩ := exec_eq_tableRead hl s
    obtain ⟨h, _⟩ | ⟨_, h, _⟩ | ⟨_, _, rfl⟩ := tableRead_cases (e'.symm.trans e)
    · exact absurd h hlayer
    · exact absurd (hv.symm.trans h) (by decide)
    · cases hr; rfl
  | none =>
    cases i with
    | rdtr | rdout | rdinit => cases hl
    | _ => cases e; cases hr <;> rfl

end TableReads

/-- Settles O4: the two decode errors come first; the command of any other word ends in a table read's error or in none. -/
theorem wordOutcomeFollowsThePriority : Obligations.WordOutcomeFollowsThePriority := by
  intro w s
  refine ⟨fun ho => ?_, fun ho hr => ?_, fun ho hr htab hl => ?_, fun ho hr htab hl hv => ?_, fun ho hr hread => ?_⟩
  · exact runWord_decodeError (decode_illegalOpcode ho) s
  · exact runWord_decodeError (decode_rsvdNonzero ho hr) s
  · obtain ⟨i, hi⟩ := exists_decode_eq_ok.mpr ⟨ho, hr⟩
    rw [runWord_ok hi]
    exact exec_layerRange ((tableLayer_eq_some hi).mpr ⟨htab, hl⟩)
  · obtain ⟨i, hi⟩ := exists_decode_eq_ok.mpr ⟨ho, hr⟩
    rw [runWord_ok hi]
    exact exec_notValid ((tableLayer_eq_some hi).mpr ⟨htab, rfl⟩) hl hv
  · obtain ⟨i, hi⟩ := exists_decode_eq_ok.mpr ⟨ho, hr⟩
    obtain ⟨t, ht⟩ := exec_next i s
    refine ⟨i, t, hi, (runWord_ok hi s).trans ht, ht, fun r hrsp => exec_without_error ht (fun l hl => ?_) hrsp⟩
    obtain ⟨htab, rfl⟩ := (tableLayer_eq_some hi).mp hl
    exact hread htab

/-- The two halves of a digest, loaded over any other one, make it (30_encoding.md R80). -/
theorem withHighHalf_withLowHalf (d d₀ : Digest) :
    withHighHalf (withLowHalf d₀ (d.extractLsb' 0 16)) (d.extractLsb' 16 16) = d := by
  have hd := d.isLt
  apply BitVec.eq_of_toNat_eq
  rw [withHighHalf, withLowHalf, Laws.toNat_concat, Laws.extract_toNat, Laws.extract_toNat, Laws.toNat_concat,
    Laws.extract_toNat, Laws.extract_toNat]
  omega

/-- Settles O10. -/
theorem lddigLoadsTheWholeDigest : Obligations.LddigLoadsTheWholeDigest := by
  intro d s
  refine ⟨_, _, _, _, Source.commands_lddig d, rfl, rfl, rfl, rfl, ?_⟩
  exact congrArg (fun d' => State.responding { s with digest := d' } 0) (withHighHalf_withLowHalf d s.digest)

end Machine

end Sys2Proof

/-! PROOFS. The statements about the mixing functions (40_mixing.md): the rotates as the library's, the byte maps with their
inverses, and word-obfuscate as a number. -/

namespace Sys2Proof.Machine

/-! ### Rotations, for every width -/

section Rotations

variable {v : Nat} (x : BitVec v)

theorem rotateLeft_of_mod_eq_zero {n : Nat} (hn : n % v = 0) : x.rotateLeft n = x := by
  rw [BitVec.rotateLeft_def, hn]
  simp [BitVec.ushiftRight_eq_zero]

/-- The two shifts of R101 and R102 are the library's rotation. With `n` a multiple of the width both of them shift by 0. -/
theorem shifts_eq_rotateLeft (hv : 0 < v) (n : Nat) :
    (x <<< (n % v)) ||| (x >>> ((v - n % v) % v)) = x.rotateLeft n := by
  have hn := Nat.mod_lt n hv
  obtain h0 | hpos := Nat.eq_zero_or_pos (n % v)
  · rw [rotateLeft_of_mod_eq_zero x h0]
    simp [h0]
  · rw [BitVec.rotateLeft_def, Nat.mod_eq_of_lt (a := v - n % v) (by omega)]

theorem rotateLeft_rotateLeft (m n : Nat) : (x.rotateLeft m).rotateLeft n = x.rotateLeft (m + n) := by
  apply BitVec.eq_of_getMsbD_eq
  intro i hi
  have hlt : (n + i) % v < v := Nat.mod_lt _ (by omega)
  simp [BitVec.getMsbD_rotateLeft, hi, hlt, Nat.add_assoc]

/-- Two rotations whose amounts make whole turns undo each other. -/
theorem rotateLeft_rotateLeft_of_turn {m n : Nat} (h : (m + n) % v = 0) : (x.rotateLeft m).rotateLeft n = x := by
  rw [rotateLeft_rotateLeft, rotateLeft_of_mod_eq_zero x h]

theorem rotateLeft_bijective (hv : 0 < v) (n : Nat) : Function.Bijective fun x : BitVec v => x.rotateLeft n := by
  have hturn : (n + (v - n % v)) % v = 0 := by
    rw [← Nat.mod_add_mod, Nat.add_sub_cancel' (Nat.mod_lt n hv).le, Nat.mod_self]
  refine Function.bijective_iff_has_inverse.mpr ⟨fun x => x.rotateLeft (v - n % v), fun x => ?_, fun x => ?_⟩
  · exact rotateLeft_rotateLeft_of_turn x hturn
  · exact rotateLeft_rotateLeft_of_turn x (Nat.add_comm n _ ▸ hturn)

/-- A rotation as a number: the bits that stay within the width as a product, those that come round as a quotient. -/
theorem toNat_rotateLeft_of_lt {n : Nat} (hn : n < v) :
    (x.rotateLeft n).toNat = x.toNat * 2 ^ n % 2 ^ v + x.toNat / 2 ^ (v - n) := by
  have hlow : x.toNat / 2 ^ (v - n) < 2 ^ n := by
    rw [Nat.div_lt_iff_lt_mul (by positivity), ← pow_add, Nat.add_sub_cancel' hn.le]
    exact x.isLt
  have hhigh : x.toNat * 2 ^ n % 2 ^ v = (x.toNat % 2 ^ (v - n)) <<< n := by
    rw [Nat.shiftLeft_eq, ← Nat.mul_mod_mul_right, ← pow_add, Nat.sub_add_cancel hn.le]
  rw [BitVec.toNat_rotateLeft, Nat.mod_eq_of_lt hn, Nat.shiftLeft_eq, Nat.shiftRight_eq_div_pow, hhigh,
    Nat.shiftLeft_add_eq_or_of_lt hlow]

end Rotations

/-! ### The rotates (40_mixing.md R101, R102) -/

theorem rotl8_eq_rotateLeft (b : Byte) (n : Nat) : rotl8 b n = b.rotateLeft n := shifts_eq_rotateLeft b (by decide) n

theorem rotl32_eq_rotateLeft (w : Word) (n : Nat) : rotl32 w n = w.rotateLeft n := shifts_eq_rotateLeft w (by decide) n

theorem rotl8_rotl8_of_turn (b : Byte) {m n : Nat} (h : (m + n) % 8 = 0) : rotl8 (rotl8 b m) n = b := by
  rw [rotl8_eq_rotateLeft, rotl8_eq_rotateLeft, rotateLeft_rotateLeft_of_turn b h]

/-- Settles O48: each rotate is the library's rotation, whose whole turns are the identity. -/
theorem rotatesAreRotations : Obligations.RotatesAreRotations := by
  refine ⟨fun b n => ⟨?_, rotl8_rotl8_of_turn b (by omega), fun hn => ?_⟩, fun w n => ⟨?_, fun hn => ?_⟩, fun n => ?_, fun n => ?_⟩
  · rw [rotl8_eq_rotateLeft, BitVec.rotateLeft_mod_eq_rotateLeft]
  · rw [rotl8_eq_rotateLeft, rotateLeft_of_mod_eq_zero b hn]
  · rw [rotl32_eq_rotateLeft, BitVec.rotateLeft_mod_eq_rotateLeft]
  · rw [rotl32_eq_rotateLeft, rotateLeft_of_mod_eq_zero w hn]
  · simpa only [rotl8_eq_rotateLeft] using rotateLeft_bijective (by decide) n
  · simpa only [rotl32_eq_rotateLeft] using rotateLeft_bijective (by decide) n

/-! ### The substitution (40_mixing.md R103, R104) -/

theorem sbox_toNat (b : Byte) : (sbox b).toNat =
    (((b.toNat * 0xA7 + 0x3B) % 256 * 8 % 256 + (b.toNat * 0xA7 + 0x3B) % 256 / 32) ^^^ 0x5C) := by
  rw [sbox, rotl8_eq_rotateLeft, BitVec.toNat_xor, toNat_rotateLeft_of_lt _ (by decide), BitVec.toNat_add, BitVec.toNat_mul]
  simp

/-- The two factors are inverse to each other: 0xA7 * 0x17 = 0xF01. -/
theorem sboxFactors_cancel : (0xA7 : Byte) * 0x17 = 1#8 := by decide

theorem sboxInv_sbox (b : Byte) : sboxInv (sbox b) = b := by
  rw [sboxInv, sbox, BitVec.xor_assoc, BitVec.xor_self, BitVec.xor_zero, rotl8_rotl8_of_turn _ (by decide), BitVec.add_sub_cancel,
    BitVec.mul_assoc, sboxFactors_cancel, BitVec.mul_one]

theorem sbox_sboxInv (y : Byte) : sbox (sboxInv y) = y := by
  rw [sboxInv, sbox, BitVec.mul_assoc, BitVec.mul_comm 0x17, sboxFactors_cancel, BitVec.mul_one, BitVec.sub_add_cancel,
    rotl8_rotl8_of_turn _ (by decide), BitVec.xor_assoc, BitVec.xor_self, BitVec.xor_zero]

/-- By exhaustion, as R103 derives it. -/
theorem sbox_ne_self (b : Byte) : sbox b ≠ b := by decide +revert

/-- Settles O49. -/
theorem sboxHasItsInverse : Obligations.SboxHasItsInverse := fun b =>
  ⟨sbox_toNat b, rfl, sboxInv_sbox b, sbox_sboxInv b, sbox_ne_self b⟩

/-! ### The bit permutation (40_mixing.md R105, R106) -/

theorem getLsbD_bitAt_shiftLeft (b : Byte) (j : Nat) {i k : Nat} (hk : k < 8) :
    (bitAt b j <<< i).getLsbD k = (decide (k = i) && b.getLsbD j) := by
  obtain hlt | rfl | hgt := Nat.lt_trichotomy k i
  · simp [hlt, hlt.ne]
  · simp [bitAt, hk]
  · simp [bitAt, hgt.ne', Nat.sub_ne_zero_of_lt hgt]

/-- Gathering bits one place after another fills the first `n` places, each from its own source. -/
theorem getLsbD_gather (b : Byte) (f : Nat → Nat) (n : Nat) {k : Nat} (hk : k < 8) :
    ((List.range n).foldl (fun acc i => acc ||| (bitAt b (f i) <<< i)) 0).getLsbD k = (decide (k < n) && b.getLsbD (f k)) := by
  induction n with
  | zero => simp
  | succ n ih =>
    rw [List.range_succ, List.foldl_append, List.foldl_cons, List.foldl_nil, BitVec.getLsbD_or, ih, getLsbD_bitAt_shiftLeft b _ hk]
    obtain hlt | rfl | hgt := Nat.lt_trichotomy k n
    · simp [hlt, hlt.ne, Nat.lt_succ_of_lt hlt]
    · simp
    · simp [hgt.ne', hgt.not_gt, show ¬ k < n + 1 by omega]

theorem getLsbD_scramble (b : Byte) {i : Nat} (hi : i < 8) : (scramble b).getLsbD i = b.getLsbD ((5 * i + 3) % 8) := by
  rw [scramble, getLsbD_gather b _ 8 hi, decide_eq_true hi, Bool.true_and]

theorem getLsbD_scrambleInv (y : Byte) {j : Nat} (hj : j < 8) : (scrambleInv y).getLsbD j = y.getLsbD ((5 * j + 1) % 8) := by
  rw [scrambleInv, getLsbD_gather y _ 8 hj, decide_eq_true hj, Bool.true_and]

theorem scrambleInv_scramble (b : Byte) : scrambleInv (scramble b) = b := by
  apply BitVec.eq_of_getLsbD_eq
  intro j hj
  rw [getLsbD_scrambleInv _ hj, getLsbD_scramble b (Nat.mod_lt _ (by decide))]
  congr 1
  omega

theorem scramble_scrambleInv (y : Byte) : scramble (scrambleInv y) = y := by
  apply BitVec.eq_of_getLsbD_eq
  intro i hi
  rw [getLsbD_scramble _ hi, getLsbD_scrambleInv y (Nat.mod_lt _ (by decide))]
  congr 1
  omega

/-- The places form a single cycle, 0 3 2 5 4 7 6 1, so a byte that `scramble` fixes has one value in all of them. -/
theorem getLsbD_eq_of_scramble_fixed {b : Byte} (h : scramble b = b) {i : Nat} (hi : i < 8) : b.getLsbD i = b.getLsbD 0 := by
  have next (k : Nat) (hk : k < 8) : b.getLsbD ((5 * k + 3) % 8) = b.getLsbD k := by rw [← getLsbD_scramble b hk, h]
  have h3 : b.getLsbD 3 = b.getLsbD 0 := next 0 (by decide)
  have h2 : b.getLsbD 2 = b.getLsbD 0 := (next 3 (by decide)).trans h3
  have h5 : b.getLsbD 5 = b.getLsbD 0 := (next 2 (by decide)).trans h2
  have h4 : b.getLsbD 4 = b.getLsbD 0 := (next 5 (by decide)).trans h5
  have h7 : b.getLsbD 7 = b.getLsbD 0 := (next 4 (by decide)).trans h4
  have h6 : b.getLsbD 6 = b.getLsbD 0 := (next 7 (by decide)).trans h7
  have h1 : b.getLsbD 1 = b.getLsbD 0 := (next 6 (by decide)).trans h6
  exact match i, hi with
  | 0, _ => rfl
  | 1, _ => h1
  | 2, _ => h2
  | 3, _ => h3
  | 4, _ => h4
  | 5, _ => h5
  | 6, _ => h6
  | 7, _ => h7

theorem scramble_eq_self_iff (b : Byte) : scramble b = b ↔ b = 0x00 ∨ b = 0xFF := by
  constructor
  · intro h
    cases hb : b.getLsbD 0 with
    | false =>
      left
      apply BitVec.eq_of_getLsbD_eq
      intro i hi
      rw [getLsbD_eq_of_scramble_fixed h hi, hb]
      exact BitVec.getLsbD_zero.symm
    | true =>
      right
      apply BitVec.eq_of_getLsbD_eq
      intro i hi
      rw [getLsbD_eq_of_scramble_fixed h hi, hb, show (0xFF : Byte) = BitVec.allOnes 8 from rfl, BitVec.getLsbD_allOnes,
        decide_eq_true hi]
  · rintro (rfl | rfl) <;> decide

/-- Settles O50. -/
theorem scramblePermutesTheBits : Obligations.ScramblePermutesTheBits := fun b =>
  ⟨fun _ => getLsbD_scramble b, fun _ => getLsbD_scrambleInv b, scrambleInv_scramble b, scramble_scrambleInv b,
    scramble_eq_self_iff b⟩

/-! ### Word-obfuscate (40_mixing.md R107) -/

/-- The mask clears bit 31, so the shift by 1 carries no bit out. -/
theorem woMasked_doubled_lt (n : Nat) : (n &&& 0x7F4A7C15) * 2 < 2 ^ 32 := by
  have hle : n &&& 0x7F4A7C15 ≤ 0x7F4A7C15 := Nat.and_le_right
  omega

theorem wo_toNat (w : Word) : (wo w).toNat =
    ((((w.toNat ^^^ 0x9E3779B9) + (w.toNat &&& 0x7F4A7C15) * 2) % 2 ^ 32) ^^^
      (w.toNat * 2 ^ 13 % 2 ^ 32 + w.toNat / 2 ^ 19)) := by
  have hshift : ((w &&& 0x7F4A7C15) <<< 1).toNat = (w.toNat &&& 0x7F4A7C15) * 2 := by
    rw [BitVec.toNat_shiftLeft, Nat.shiftLeft_eq]
    exact Nat.mod_eq_of_lt (woMasked_doubled_lt w.toNat)
  have hrot : (rotl32 w 13).toNat = w.toNat * 2 ^ 13 % 2 ^ 32 + w.toNat / 2 ^ 19 := by
    rw [rotl32_eq_rotateLeft]
    exact toNat_rotateLeft_of_lt w (by decide)
  rw [wo, BitVec.toNat_xor, BitVec.toNat_add, hshift, hrot]
  rfl

/-- Settles O58: the number, then the rule's four values by evaluation. -/
theorem wordObfuscateAsANumber : Obligations.WordObfuscateAsANumber :=
  ⟨fun w => ⟨wo_toNat w, woMasked_doubled_lt w.toNat⟩, by decide, by decide, by decide, by decide⟩

end Sys2Proof.Machine

/-! PROOFS. The statements about the upstream key hash (41_key_hash.md): the loop over a key in two parts, the bound on its length
and the synthesised keys. -/

namespace Sys2Proof.Machine

section KeyHash

variable (m : Mixing)

/-! ### The loop (41_key_hash.md R121) -/

@[simp] theorem hashLoop_nil (i : Nat) (h : Word) : hashLoop m i h [] = h := rfl

@[simp] theorem hashLoop_cons (i : Nat) (h : Word) (b : Byte) (bs : List Byte) : hashLoop m i h (b :: bs) =
    hashLoop m (i + 1) (m.wo ((h ^^^ (m.sbox (m.rotl8 b (i % 8))).setWidth 32) + BitVec.ofNat 32 (i + 1) * 0x01000193)) bs := rfl

/-- The loop goes on after a key's first part at the position and with the accumulator that part leaves. -/
theorem hashLoop_append (i : Nat) (h : Word) (front back : List Byte) :
    hashLoop m i h (front ++ back) = hashLoop m (i + front.length) (hashLoop m i h front) back := by
  induction front generalizing i h with
  | nil => rfl
  | cons b bs ih => rw [List.cons_append, hashLoop_cons, hashLoop_cons, ih, List.length_cons, Nat.add_assoc, Nat.add_comm 1]

@[simp] theorem hashAcc_nil : hashAcc m [] = 0x811C9DC5 := rfl

theorem hashAcc_concat (key : List Byte) (b : Byte) : hashAcc m (key ++ [b]) =
    m.wo ((hashAcc m key ^^^ (m.sbox (m.rotl8 b (key.length % 8))).setWidth 32) + BitVec.ofNat 32 (key.length + 1) * 0x01000193) := by
  rw [hashAcc, hashLoop_append, Nat.zero_add, hashLoop_cons, hashLoop_nil, ← hashAcc]

/-! ### The bound on the key's length (41_key_hash.md R122) -/

theorem hash_of_length_le {key : List Byte} (hlen : key.length ≤ Config.keyMax) : hash m key = some (hashBytes m key) :=
  if_pos hlen

theorem hash_of_lt_length {key : List Byte} (hlen : Config.keyMax < key.length) : hash m key = none :=
  if_neg (Nat.not_le_of_lt hlen)

theorem hash_eq_none_iff (key : List Byte) : hash m key = none ↔ Config.keyMax < key.length := by
  refine ⟨fun hnone => ?_, hash_of_lt_length m⟩
  by_contra hlen
  rw [hash_of_length_le m (Nat.le_of_not_lt hlen)] at hnone
  cases hnone

/-! ### Synthesised keys (41_key_hash.md R123, R124) -/

/-- `pick_symbol` with the low byte of the word taken as the rule's slice [7:0]. -/
theorem pickSymbol_eq_sbox_extract (h i : Digest) : pickSymbol m h i = m.sbox ((m.wo (h + i)).extractLsb' 0 8) := by
  rw [pickSymbol, BitVec.setWidth_eq_extractLsb' (by decide)]

@[simp] theorem synthKey_length (h : Digest) : (synthKey m h).length = Config.synthKeyLen := by
  rw [synthKey, List.length_map, List.length_range]

theorem synthKey_getElem? (h : Digest) {i : Nat} (hi : i < Config.synthKeyLen) :
    (synthKey m h)[i]? = some (pickSymbol m h (BitVec.ofNat 32 i)) := by
  rw [synthKey, List.getElem?_map, List.getElem?_range hi, Option.map_some]

theorem hash_synthKey (h : Digest) : hash m (synthKey m h) = some (hashBytes m (synthKey m h)) := by
  apply hash_of_length_le
  rw [synthKey_length]
  decide

end KeyHash

/-- Settles O51. -/
theorem hashAbsorbsBytesInOrder : Obligations.HashAbsorbsBytesInOrder := fun m key b =>
  ⟨hashAcc_nil m, hashAcc_concat m key b, rfl⟩

/-- Settles O52. -/
theorem onlyOverlongKeysAreRefused : Obligations.OnlyOverlongKeysAreRefused := by
  refine ⟨hash_eq_none_iff, fun m h => ⟨synthKey_length m h, fun i hi => ?_, _, hash_synthKey m h⟩⟩
  rw [synthKey_getElem? m h hi, pickSymbol_eq_sbox_extract]

end Sys2Proof.Machine

/-! PROOFS. The statements about generation (42_generate.md): the order of the internal steps, GEN's two phases and its completion,
and the generation formulas with the balance of each row. -/

namespace Sys2Proof.Machine

/-! ### The order of the internal steps (42_generate.md R144) -/

theorem Entry.populated_of_layer_lt {e : Entry} (h : e.layer.toNat < 3) : e.populated = true := by
  have hne : e.layer ≠ noLayer := fun heq => by
    rw [heq] at h
    exact absurd h (by decide)
  simpa [Entry.populated] using hne

section InternalSteps

variable {l : LayerNo} (hl : l.toNat < 3) (s : StateNo)

include hl

/-- Step `j` of a row: the first writes its output byte, and step `c + 1` its transition entry for `c`. -/
theorem entryAt_row {j : Nat} (hj : j < 257) : entryAt ((l.toNat * 32 + s.toNat) * 257 + j) =
    some (if j = 0 then .out l s else .trans l s (.ofNat 8 (j - 1))) := by
  have hs := s.isLt
  have hrow : ((l.toNat * 32 + s.toNat) * 257 + j) / 257 = l.toNat * 32 + s.toNat := by omega
  have hpos : ((l.toNat * 32 + s.toNat) * 257 + j) % 257 = j := by omega
  have hlayer : (l.toNat * 32 + s.toNat) / 32 = l.toNat := by omega
  have hstate : (l.toNat * 32 + s.toNat) % 32 = s.toNat := by omega
  rw [entryAt_eq, if_pos (by omega), hrow, hpos, hlayer, hstate]
  simp only [BitVec.ofNat_toNat, BitVec.setWidth_eq]

theorem entryAt_out : entryAt ((l.toNat * 32 + s.toNat) * 257) = some (.out l s) := by
  rw [← Nat.add_zero ((l.toNat * 32 + s.toNat) * 257), entryAt_row hl s (by decide), if_pos rfl]

theorem entryAt_trans (c : Byte) : entryAt ((l.toNat * 32 + s.toNat) * 257 + 1 + c.toNat) = some (.trans l s c) := by
  have hc := c.isLt
  rw [Nat.add_assoc, entryAt_row hl s (by omega), if_neg (by omega), Nat.add_sub_cancel_left, BitVec.ofNat_toNat,
    BitVec.setWidth_eq]

theorem entryAt_init : entryAt (24672 + l.toNat) = some (.init l) := by
  rw [entryAt_eq, if_neg (by omega), if_pos (by omega), Nat.add_sub_cancel_left, BitVec.ofNat_toNat, BitVec.setWidth_eq]

end InternalSteps

theorem entryAt_stepNo {e : Entry} (h : e.populated = true) : entryAt e.stepNo = some e := by
  have hl := Entry.layer_lt h
  rw [Entry.stepNo_eq]
  cases e with
  | trans l s c => exact entryAt_trans hl s c
  | out l s => exact entryAt_out hl s
  | init l => exact entryAt_init hl

/-- Every step is an entry's: the rows by the quotient and the remainder of 257, and the three initial states after them. -/
theorem exists_entry_of_stepNo {k : Nat} (hk : k < 24675) : ∃ e : Entry, e.populated = true ∧ e.stepNo = k := by
  by_cases hrows : k < 24672
  · by_cases hfirst : k % 257 = 0
    · refine ⟨.out (.ofNatLT (k / 257 / 32) (by omega)) (.ofNatLT (k / 257 % 32) (by omega)),
        Entry.populated_of_layer_lt ?_, ?_⟩
      · simp only [Entry.layer, BitVec.toNat_ofNatLT]; omega
      · simp only [Entry.stepNo_eq, BitVec.toNat_ofNatLT]; omega
    · refine ⟨.trans (.ofNatLT (k / 257 / 32) (by omega)) (.ofNatLT (k / 257 % 32) (by omega)) (.ofNatLT (k % 257 - 1) (by omega)),
        Entry.populated_of_layer_lt ?_, ?_⟩
      · simp only [Entry.layer, BitVec.toNat_ofNatLT]; omega
      · simp only [Entry.stepNo_eq, BitVec.toNat_ofNatLT]; omega
  · refine ⟨.init (.ofNatLT (k - 24672) (by omega)), Entry.populated_of_layer_lt ?_, ?_⟩
    · simp only [Entry.layer, BitVec.toNat_ofNatLT]; omega
    · simp only [Entry.stepNo_eq, BitVec.toNat_ofNatLT]; omega

/-- Settles O18: `entryAt` gives each entry back from its step, so no two entries share one. -/
theorem internalStepsNameEachEntryOnce : Obligations.InternalStepsNameEachEntryOnce := by
  refine ⟨fun k hk => ?_, fun e he => ⟨Entry.stepNo_lt he, entryAt_stepNo he⟩, fun l s c hne => ?_⟩
  · obtain ⟨e, he, rfl⟩ := exists_entry_of_stepNo hk
    refine ⟨e, ⟨he, rfl⟩, fun e' ⟨he', hstep⟩ => ?_⟩
    exact Option.some.inj ((entryAt_stepNo he').symm.trans (hstep ▸ entryAt_stepNo he))
  · have hl : l.toNat < 3 := Entry.layer_lt (e := .init l) (decide_eq_true hne)
    exact ⟨entryAt_out hl s, entryAt_trans hl s c, entryAt_init hl⟩

/-! ### GEN, phase 1 (42_generate.md R130, R132) -/

/-- In a GEN exactly the entries of the internal steps made hold a value, the generated one. -/
theorem State.entry_generating {s : State} {k : BitVec 15} (hv : s.valid = false) (hp : s.phase = .generating k) {e : Entry}
    (he : e.populated = true) :
    s.entry e = if e.stepNo < k.toNat then some (entryValue specMixing s.digest e) else none := by
  rw [State.entry_eq, if_pos he, State.tableSeed_generating hv hp]
  split <;> rfl

theorem State.startGen_entry (s : State) (e : Entry) : s.startGen.entry e = none := by
  have hseed : s.startGen.tableSeed e.stepNo = none := by
    rw [State.tableSeed_generating (State.startGen_valid s) (State.startGen_phase s)]
    exact if_neg (Nat.not_lt_zero _)
  rw [State.entry_eq, hseed]
  exact ite_self none

theorem runWord_gen (s : State) : runWord 0x30000000 s = .next s.startGen :=
  runWord_ok (decode_eq_ok_iff_encode (i := .gen).mpr rfl) s

/-- Settles O17. -/
theorem genPhaseOneEmptiesTheTables : Obligations.GenPhaseOneEmptiesTheTables := by
  refine fun s => ⟨⟨s.startGen, rfl, rfl, s.startGen_entry⟩, runWord_gen s, fun w ho hr => ?_⟩
  have hreserved : w &&& rsvdMask (opcField w) ≠ 0 := by
    rw [ho]
    exact fun h => hr (and_rsvdN.mp h)
  exact runWord_decodeError (decode_rsvdNonzero (by rw [ho]; decide) hreserved) s

/-! ### The sequencer (10_state.md R30) -/

/-- `s` in a GEN with GSEQ at `k`. -/
def State.withGseq (s : State) (k : BitVec 15) : State := { s with phase := .generating k }

section Sequencer

variable (s : State) {k : BitVec 15} {n : Nat}

theorem State.advanceGen_moves (h : k.toNat + max 1 n < 24675) :
    s.advanceGen k n = s.withGseq (BitVec.ofNat 15 (k.toNat + max 1 n)) := if_pos h

theorem State.advanceGen_completes (h : 24675 ≤ k.toNat + max 1 n) : s.advanceGen k n = s.finishGen :=
  if_neg (Nat.not_lt_of_le h)

end Sequencer

/-- Settles O19: one step moves GSEQ past `k`, and the entries below GSEQ are the ones that hold a value. -/
theorem internalStepWritesExactlyItsEntry : Obligations.InternalStepWritesExactlyItsEntry := by
  intro s k hp hv hk hr hn
  have hone : max 1 s.tick.seqSteps = 1 := max_eq_left hn
  have hnext : (k + 1).toNat = k.toNat + 1 := BitVec.toNat_add_of_lt (y := 1) (by change k.toNat + 1 < 2 ^ 15; omega)
  have hstep : step s = .next (s.advanceTick.withGseq (k + 1)) := by
    rw [step_generating hr hp, State.advanceGen_moves _ (by omega), hone, ← hnext, BitVec.ofNat_toNat, BitVec.setWidth_eq]
  refine ⟨_, hstep, rfl, hv, rfl, rfl, fun e he => ?_⟩
  rw [State.entry_generating hv hp he, State.entry_generating (s := s.advanceTick.withGseq (k + 1)) hv rfl he, hnext]
  obtain hlt | heq | hgt := Nat.lt_trichotomy e.stepNo k.toNat
  · rw [if_pos (by omega), if_neg (by omega), if_pos hlt]
    rfl
  · rw [if_pos (by omega), if_pos heq]
    rfl
  · rw [if_neg (by omega), if_neg (by omega), if_neg (by omega)]

/-! ### GEN, phase 2, and its completion (42_generate.md R130, R142, R143) -/

/-- `t` is as phase 2 of a GEN leaves AG, with the automaton of the digest of `s`, and the registers and lists that a GEN does not
write as in `s`. -/
def State.GeneratedFrom (s t : State) : Prop :=
  t.phase = .respond ⟨false, 0⟩ ∧ t.valid = true ∧ t.gd = some s.digest ∧ t.Holds s.digest ∧
    t.digest = s.digest ∧ t.ecode = s.ecode ∧ t.cmds = s.cmds ∧ t.taken = s.taken

theorem State.finishGen_holds (s : State) : s.finishGen.Holds s.digest := State.holds_of_valid rfl rfl

theorem State.generatedFrom_finishGen (s : State) : s.GeneratedFrom s.finishGen :=
  ⟨rfl, rfl, rfl, s.finishGen_holds, rfl, rfl, rfl, rfl⟩

/-- The last internal step completes the GEN in the same step. -/
theorem step_completes_gen {s : State} {k : BitVec 15} (hp : s.phase = .generating k) (hr : s.tick.rst = false)
    (hlast : 24675 ≤ k.toNat + max 1 s.tick.seqSteps) : step s = .next s.advanceTick.finishGen := by
  rw [step_generating hr hp, State.advanceGen_completes _ hlast]

/-- Settles O20. -/
theorem genPhaseTwoFillsTheTables : Obligations.GenPhaseTwoFillsTheTables := fun s _ hp hr hlast =>
  ⟨_, step_completes_gen hp hr hlast, s.advanceTick.generatedFrom_finishGen⟩

theorem State.NoReset.of_step {s t : State} (hs : s.NoReset) (h : step s = .next t) : t.NoReset := by
  obtain ⟨hsched, hrest⟩ := hs
  obtain ⟨hst, hrt⟩ := step_sched h
  exact ⟨fun x hx => hsched x (List.mem_of_mem_tail (hst ▸ hx)), hrt ▸ hrest⟩

/-- Settles O21, by induction on the internal steps left: each step makes at least one. -/
theorem everyGenerationCompletes : Obligations.EveryGenerationCompletes := by
  intro s k hp hreset
  induction hm : 24675 - k.toNat using Nat.strong_induction_on generalizing s k with
  | _ m ih =>
    have hr := hreset.tick
    by_cases hlast : 24675 ≤ k.toNat + max 1 s.tick.seqSteps
    · exact ⟨1, _, Nat.le_max_left .., run_succ (step_completes_gen hp hr hlast) 0, s.advanceTick.generatedFrom_finishGen⟩
    · have hlt := Nat.lt_of_not_le hlast
      have hmoved : (BitVec.ofNat 15 (k.toNat + max 1 s.tick.seqSteps)).toNat = k.toNat + max 1 s.tick.seqSteps := by
        rw [BitVec.toNat_ofNat]; omega
      have hstep := step_generating hr hp
      rw [State.advanceGen_moves _ hlt] at hstep
      obtain ⟨n, t, hn, hrun, hgenerated⟩ := ih _ (by omega) _ _ rfl (hreset.of_step hstep) rfl
      exact ⟨n + 1, t, by omega, (run_succ hstep n).trans hrun, hgenerated⟩

/-- The state in which the GEN word leaves AG at the command level. -/
theorem command_gen (s : State) : command 0x30000000 s =
    .next ((s.begin 0x30000000).startGen.finishGen.transfer ⟨false, 0⟩) := by
  rw [command, runWord_gen]
  rfl

theorem State.entry_of_gd {s : State} {d : Digest} (hv : s.valid = true) (hg : s.gd = some d) (e : Entry) :
    s.entry e = if e.populated then some (entryValue specMixing d e) else none := by
  rw [State.entry_eq, State.tableSeed_valid hv, hg]
  rfl

/-- Settles O22: each GEN leaves GD = DIGEST with VALID = 1, and then the entries are a function of GD. -/
theorem equalDigestsGenerateEqualTables : Obligations.EqualDigestsGenerateEqualTables := by
  intro s u hd
  refine ⟨_, _, command_gen s, command_gen u, rfl, rfl, State.holds_of_valid rfl rfl, fun e => ?_⟩
  rw [State.entry_of_gd (d := s.digest) rfl rfl, State.entry_of_gd (d := u.digest) rfl rfl, hd]

/-! ### The formulas (42_generate.md R133 to R138) -/

/-- The product of a widened field's successor: the successor does not wrap. -/
theorem succ_mul_toNat {n : Nat} (x : BitVec n) (hn : n < 32) (factor : Word) :
    ((x.setWidth 32 + 1) * factor).toNat = (x.toNat + 1) * factor.toNat % 2 ^ 32 := by
  have hx : x.toNat + 1 < 2 ^ 32 := (Nat.succ_le_of_lt x.isLt).trans_lt (Nat.pow_lt_pow_right (by decide) hn)
  have hwide : (x.setWidth 32).toNat = x.toNat := BitVec.toNat_setWidth_of_le hn.le
  rw [BitVec.toNat_mul, BitVec.toNat_add_of_lt (y := 1) (by rw [hwide]; exact hx), hwide]
  rfl

theorem layerConst_toNat (l : LayerNo) : (layerConst l).toNat = (l.toNat + 1) * 0x85EBCA6B % 2 ^ 32 :=
  succ_mul_toNat l (by decide) _

theorem rowConst_toNat (s : StateNo) : (rowConst s).toNat = (s.toNat + 1) * 0x27D4EB2F % 2 ^ 32 :=
  succ_mul_toNat s (by decide) _

/-- The key fields are the bytes of the row seed. -/
theorem rowSeed_bytes (rs : Word) : rs.toNat =
    (rowK1 rs).toNat + 256 * (rowK2 rs).toNat + 65536 * (rowK3 rs).toNat + 16777216 * (rowKo rs).toNat := by
  have hrs := rs.isLt
  simp only [rowK1, rowK2, rowK3, rowKo, Laws.extract_toNat]
  omega

theorem rowRot_toNat (rs : Word) : (rowRot rs).toNat = (rowKo rs).toNat % 8 := by
  simp only [rowRot, rowKo, Laws.extract_toNat]
  omega

/-- The low 5 bits of a word as a state number. -/
theorem lowState_toNat {n : Nat} (x : BitVec n) : (x.extractLsb' 0 5).toNat = x.toNat % 32 := by
  rw [Laws.extract_toNat, pow_zero, Nat.div_one]
  rfl

/-- Settles O24: the sums, the key fields and the low bits as numbers; the other formulas stand in the definitions. -/
theorem generationFieldsAsNumbers : Obligations.GenerationFieldsAsNumbers := fun d l s c rs =>
  ⟨layerConst_toNat l, rfl, rowConst_toNat s, rfl, rowSeed_bytes rs, rowRot_toNat rs, rfl, by rw [BitVec.ofNat_toNat]; rfl,
    lowState_toNat _, lowState_toNat _⟩

/-! ### The row permutation and the balance of a row (42_generate.md R135, R139) -/

theorem xor_bijective {n : Nat} (k : BitVec n) : Function.Bijective fun x : BitVec n => x ^^^ k :=
  Function.Involutive.bijective fun x => by rw [BitVec.xor_assoc, BitVec.xor_self, BitVec.xor_zero]

theorem add_bijective {n : Nat} (k : BitVec n) : Function.Bijective fun x : BitVec n => x + k :=
  Function.bijective_iff_has_inverse.mpr ⟨fun y => y - k, fun x => BitVec.add_sub_cancel x k, fun y => BitVec.sub_add_cancel y k⟩

/-- Settles O26: the row permutation is the composition of its six bijective steps. -/
theorem rowPermutationBijectiveForEveryMixing : Obligations.RowPermutationBijectiveForEveryMixing :=
  fun _ rs hrot hsbox hscramble =>
    (xor_bijective (rowK3 rs)).comp <| hscramble.comp <| hsbox.comp <| (add_bijective (rowK2 rs)).comp <|
      (hrot (rowRot rs).toNat).comp (xor_bijective (rowK1 rs))

theorem rotl8_bijective (n : Nat) : Function.Bijective fun b : Byte => rotl8 b n := by
  obtain ⟨_, _, hrot, _⟩ := rotatesAreRotations
  exact hrot n

theorem sbox_bijective : Function.Bijective sbox :=
  Function.bijective_iff_has_inverse.mpr ⟨sboxInv, sboxInv_sbox, sbox_sboxInv⟩

theorem scramble_bijective : Function.Bijective scramble :=
  Function.bijective_iff_has_inverse.mpr ⟨scrambleInv, scrambleInv_scramble, scramble_scrambleInv⟩

theorem rowPerm_bijective (rs : Word) : Function.Bijective (rowPerm specMixing rs) :=
  rowPermutationBijectiveForEveryMixing specMixing rs rotl8_bijective sbox_bijective scramble_bijective

/-- As many bytes meet a condition after a bijection as meet it before. -/
theorem countP_comp_bijective {f : Byte → Byte} (hf : Function.Bijective f) (p : Byte → Bool) :
    (List.finRange 256).countP (fun c => p (f (BitVec.ofFin c))) = (List.finRange 256).countP fun c => p (BitVec.ofFin c) := by
  have hperm := ((BitVec.equivFin (m := 8)).toEquiv.permCongr (Equiv.ofBijective f hf)).map_finRange_perm
  refine Eq.trans ?_ (hperm.countP_eq fun c => p (BitVec.ofFin c))
  rw [List.countP_map]
  rfl

/-- Exactly 8 bytes have given low 5 bits: of the numbers below 256, those of one remainder mod 32. -/
theorem countP_lowState (v : StateNo) :
    (List.finRange 256).countP (fun c => decide ((BitVec.ofFin c : Byte).extractLsb' 0 5 = v)) = 8 := by
  have hv := v.isLt
  have hlow (c : Fin 256) : decide ((BitVec.ofFin c : Byte).extractLsb' 0 5 = v) = decide ((c : Nat) ≡ v.toNat [MOD 32]) := by
    rw [decide_eq_decide, ← BitVec.toNat_inj, lowState_toNat, Nat.ModEq, Nat.mod_eq_of_lt hv]
    rfl
  calc (List.finRange 256).countP (fun c => decide ((BitVec.ofFin c : Byte).extractLsb' 0 5 = v))
      = ((List.finRange 256).map Fin.val).countP fun n => decide (n ≡ v.toNat [MOD 32]) := by
        simp only [hlow, List.countP_map]; rfl
    _ = Nat.count (· ≡ v.toNat [MOD 32]) 256 := by rw [List.map_coe_finRange_eq_range]; rfl
    _ = 8 := by rw [Nat.count_modEq_card _ (by decide)]; simp

/-- Settles O25. -/
theorem everyRowIsBalanced : Obligations.EveryRowIsBalanced := by
  intro d l s
  have hbij := rowPerm_bijective (rowSeed specMixing d l s)
  refine ⟨hbij, fun v => ?_⟩
  rw [← List.countP_eq_length_filter]
  exact (countP_comp_bijective hbij fun b => decide (b.extractLsb' 0 5 = v)).trans (countP_lowState v)

end Sys2Proof.Machine

/-! PROOFS. The statements about the register and control commands (43_register_commands.md): what running a word of a known
opcode amounts to, the halves of DIGEST by their bits, and STATUS by the places of its fields. -/

namespace Sys2Proof.Machine

/-! ### Words of a known opcode (30_encoding.md R75, R77) -/

theorem runWord_of_encode {w : Word} {i : Instr} (h : encode i = w) (s : State) : runWord w s = exec i s :=
  runWord_ok (decode_eq_ok_iff_encode.mpr h) s

theorem legal_of_rsvdMask_ne_zero {o : BitVec 4} : rsvdMask o ≠ 0 → o < 0xA := by decide +revert

/-- A reserved bit of the opcode's format is RSVD_NONZERO; that the opcode is legal follows, as an illegal one has no reserved
bits. -/
theorem runWord_of_reserved {w : Word} {o : BitVec 4} (ho : opcField w = o) (hr : w &&& rsvdMask o ≠ 0) (s : State) :
    runWord w s = .next (s.endedInError 0x02) := by
  subst ho
  have hmask : rsvdMask (opcField w) ≠ 0 := fun h => hr (by rw [h]; exact BitVec.and_zero)
  exact runWord_decodeError (decode_rsvdNonzero (legal_of_rsvdMask_ne_zero hmask) hr) s

/-! ### Loading DIGEST (43_register_commands.md R151, R152) -/

/-- The state after a command that loaded `d` into DIGEST. -/
def State.loadDigest (s : State) (d : Digest) : State := { s with digest := d }.responding 0

@[simp] theorem State.loadDigest_digest (s : State) (d : Digest) : (s.loadDigest d).digest = d := rfl

@[simp] theorem State.loadDigest_loadDigest (s : State) (d d' : Digest) : (s.loadDigest d).loadDigest d' = s.loadDigest d' := rfl

theorem exec_ldlo (imm : Half) (s : State) : exec (.ldlo imm) s = .next (s.loadDigest (withLowHalf s.digest imm)) := rfl

theorem exec_ldhi (imm : Half) (s : State) : exec (.ldhi imm) s = .next (s.loadDigest (withHighHalf s.digest imm)) := rfl

section Halves

variable (d : Digest) (imm lo hi : Half)

theorem getLsbD_withLowHalf (i : Nat) :
    (withLowHalf d imm).getLsbD i = if i < 16 then imm.getLsbD i else d.getLsbD i := by
  rw [withLowHalf, BitVec.getLsbD_append]
  split
  · rfl
  · have hbeyond : ¬ i - 16 < 16 → d.getLsbD i = false := fun h => BitVec.getLsbD_of_ge d i (by omega)
    rw [BitVec.getLsbD_extractLsb', Nat.add_sub_cancel' (by omega)]
    by_cases h : i - 16 < 16 <;> simp [h, hbeyond]

theorem getLsbD_withHighHalf (i : Nat) :
    (withHighHalf d imm).getLsbD i = if i < 16 then d.getLsbD i else imm.getLsbD (i - 16) := by
  rw [withHighHalf, BitVec.getLsbD_append]
  split <;> simp [*]

/-! Each half survives a load of the other, so both orders of the two loads leave the high half above the low half. -/

theorem withHighHalf_withLowHalf_eq_append : withHighHalf (withLowHalf d lo) hi = hi ++ lo :=
  congrArg (hi ++ ·) BitVec.extractLsb'_append_eq_right

theorem withLowHalf_withHighHalf_eq_append : withLowHalf (withHighHalf d hi) lo = hi ++ lo :=
  congrArg (· ++ lo) BitVec.extractLsb'_append_eq_left

end Halves

/-- Settles O8: the digest by its bits, and a word of opcode 1 by its reserved bits. -/
theorem ldloLoadsTheLowHalf : Obligations.LdloLoadsTheLowHalf := by
  refine fun imm s => ⟨⟨_, exec_ldlo imm s, fun i hi => ?_, fun i hi => ?_⟩, fun w ho hr => ?_, fun w ho hr => ?_⟩
  · rw [getLsbD_withLowHalf, if_pos hi]
  · rw [getLsbD_withLowHalf, if_neg (Nat.not_lt_of_le hi)]
  · exact runWord_of_encode (i := .ldlo _) (wordI_of_fields ho hr) s
  · exact runWord_of_reserved ho (mt and_rsvdI.mp hr) s

/-- Settles O9: in either order the second load starts from the digest the first one left. -/
theorem ldhiLoadsTheHighHalf : Obligations.LdhiLoadsTheHighHalf := by
  refine fun imm s => ⟨⟨_, exec_ldhi imm s, fun i hi => ?_, fun i hi => ?_⟩, fun w ho hr => ?_, fun w ho hr => ?_, fun lo =>
    ⟨_, _, s.loadDigest (imm ++ lo), exec_ldlo lo s, ?_, exec_ldhi imm s, ?_, s.loadDigest_digest _⟩⟩
  · rw [getLsbD_withHighHalf, if_pos hi]
  · rw [getLsbD_withHighHalf, if_neg (by omega), Nat.add_sub_cancel_left]
  · exact runWord_of_encode (i := .ldhi _) (wordI_of_fields ho hr) s
  · exact runWord_of_reserved ho (mt and_rsvdI.mp hr) s
  · rw [exec_ldhi, State.loadDigest_loadDigest, State.loadDigest_digest, withHighHalf_withLowHalf_eq_append]
  · rw [exec_ldlo, State.loadDigest_loadDigest, State.loadDigest_digest, withLowHalf_withHighHalf_eq_append]

/-! ### STATUS by the places of its fields (10_state.md R23) -/

theorem statusWord_eq (s : State) : statusWord s =
    (s.ecode.setWidth 32 <<< 8) ||| (if s.ecode = 0 then 0 else 2) ||| (if s.valid then 1 else 0) := by
  have herr : (BitVec.ofBool (errFlag s)).setWidth 32 <<< 1 = if s.ecode = 0 then (0 : Word) else 2 := by
    unfold errFlag
    by_cases h : s.ecode = 0
    · rw [if_pos h, h]; rfl
    · rw [if_neg h, decide_eq_true h]; rfl
  have hvalid : (BitVec.ofBool s.valid).setWidth 32 = if s.valid then (1 : Word) else 0 := by
    cases s.valid <;> rfl
  rw [statusWord, BitVec.setWidth_append_append_append_eq_shiftLeft_setWidth_or, herr, hvalid]
  simp

/-! ### The commands without operands (43_register_commands.md R150, R153 to R155) -/

theorem exec_nop (s : State) : exec .nop s = .next (s.responding 0) := rfl

theorem exec_rdstat (s : State) : exec .rdstat s = .next (s.responding (statusWord s)) := rfl

theorem exec_rddig (s : State) : exec .rddig s = .next (s.responding s.digest) := rfl

theorem exec_clrerr (s : State) : exec .clrerr s = .next ({ s with ecode := 0 }.responding 0) := rfl

/-- Settles O11: no check of VALID stands before the response. -/
theorem rdstatRespondsTheStatusWord : Obligations.RdstatRespondsTheStatusWord := fun s =>
  ⟨statusWord_eq s ▸ exec_rdstat s, runWord_of_encode (i := .rdstat) rfl s,
    fun _ ho hr => runWord_of_reserved ho (mt and_rsvdN.mp hr) s⟩

/-- Settles O7. -/
theorem nopRespondsZeroAndChangesNothing : Obligations.NopRespondsZeroAndChangesNothing := fun s =>
  ⟨exec_nop s, runWord_of_encode (i := .nop) rfl s, fun _ ho hr => runWord_of_reserved ho (mt and_rsvdN.mp hr) s⟩

/-- Settles O12. -/
theorem rddigRespondsTheDigest : Obligations.RddigRespondsTheDigest := fun s =>
  ⟨exec_rddig s, runWord_of_encode (i := .rddig) rfl s, fun _ ho hr => runWord_of_reserved ho (mt and_rsvdN.mp hr) s⟩

/-- Settles O13: a reserved bit ends the word before CLRERR is reached, so it clears nothing. -/
theorem clrerrClearsTheRecord : Obligations.ClrerrClearsTheRecord := fun s =>
  ⟨exec_clrerr s, runWord_of_encode (i := .clrerr) rfl s, fun _ ho hr => runWord_of_reserved ho (mt and_rsvdN.mp hr) s⟩

end Sys2Proof.Machine

/-! PROOFS. The statements about the table reads (44_table_reads.md): the reading commands with their two errors, and the consumer
port. -/

namespace Sys2Proof.Machine

/-! ### What the reading commands respond (44_table_reads.md R170 to R172) -/

/-- A table read passes its two checks and responds the entry it reads (30_encoding.md R78). -/
theorem tableRead_valid {l : LayerNo} {s : State} (hl : l ≠ noLayer) (hv : s.valid = true) (read : State → Word) :
    tableRead l read s = .next (s.responding (read s)) := by
  obtain ⟨t, e⟩ := tableRead_next l read s
  obtain ⟨h, _⟩ | ⟨_, h, _⟩ | ⟨_, _, rfl⟩ := tableRead_cases e
  · exact absurd h hl
  · exact absurd (hv.symm.trans h) (by decide)
  · exact e

section ValidTables

variable {s : State} {d : Digest} (hv : s.valid = true) (hg : s.gd = some d)

include hv hg

theorem exec_rdtr_valid {l : LayerNo} (hl : l ≠ noLayer) (st : StateNo) (c : Byte) :
    exec (.rdtr l st c) s = .next (s.responding (zextState (transEntry specMixing d l st c))) := by
  rw [← State.readTrans_valid hv hg hl]
  exact tableRead_valid hl hv fun s => zextState (s.readTrans l st c)

theorem exec_rdout_valid {l : LayerNo} (hl : l ≠ noLayer) (st : StateNo) :
    exec (.rdout l st) s = .next (s.responding (zextByte (outEntry specMixing d l st))) := by
  rw [← State.readOut_valid hv hg hl]
  exact tableRead_valid hl hv fun s => zextByte (s.readOut l st)

theorem exec_rdinit_valid {l : LayerNo} (hl : l ≠ noLayer) :
    exec (.rdinit l) s = .next (s.responding (zextState (initEntry specMixing d l))) := by
  rw [← State.readInit_valid hv hg hl]
  exact tableRead_valid hl hv fun s => zextState (s.readInit l)

/-! ### What the port reads (44_table_reads.md R173) -/

theorem State.trData_valid (obs : Nat) {a : BitVec 15} (hl : a.extractLsb' 13 2 ≠ noLayer) :
    s.trData obs a = transEntry specMixing d (a.extractLsb' 13 2) (a.extractLsb' 8 5) (a.extractLsb' 0 8) := by
  rw [State.trData, if_pos hv, State.memReadTrans, State.trans_valid hv hg hl, Option.getD_some]

theorem State.outData_valid (obs : Nat) {a : BitVec 7} (hl : a.extractLsb' 5 2 ≠ noLayer) :
    s.outData obs a = outEntry specMixing d (a.extractLsb' 5 2) (a.extractLsb' 0 5) := by
  rw [State.outData, if_pos hv, State.memReadOut, State.out_valid hv hg hl, Option.getD_some]

theorem State.initData_valid (obs : Nat) {l : LayerNo} (hl : l ≠ noLayer) :
    s.initData obs l = initEntry specMixing d l := by
  rw [State.initData, if_pos hv, State.memReadInit, State.init_valid hv hg hl, Option.getD_some]

end ValidTables

/-- VALID is bit 0 of STATUS (10_state.md R23). -/
theorem getLsbD_statusWord_zero (s : State) : (statusWord s).getLsbD 0 = s.valid := by
  rw [statusWord, BitVec.getLsbD_setWidth, BitVec.getLsbD_append]
  simp

/-- Settles O14: the checks of any table read, the entry from GD, and a word of format T by its reserved bits. -/
theorem rdtrRespondsTheTransitionEntry : Obligations.RdtrRespondsTheTransitionEntry := by
  refine fun l st c s => ⟨fun hl => ?_, fun hl hv => ?_, fun d hl hv hg => ⟨?_, ?_⟩, fun w ho hr => ?_, fun w ho hr => ?_⟩
  · exact exec_layerRange (congrArg some hl)
  · exact exec_notValid rfl hl hv
  · exact State.trans_valid hv hg hl st c
  · exact exec_rdtr_valid hv hg hl st c
  · exact runWord_of_encode (i := .rdtr _ _ _) (wordT_of_fields ho hr) s
  · exact runWord_of_reserved ho (mt and_rsvdT.mp hr) s

/-- Settles O15: as O14, with the words of format O. -/
theorem rdoutRespondsTheOutputByte : Obligations.RdoutRespondsTheOutputByte := by
  refine fun l st s => ⟨fun hl => ?_, fun hl hv => ?_, fun d hl hv hg => ⟨?_, ?_⟩, fun w ho hr => ?_, fun w ho hr => ?_⟩
  · exact exec_layerRange (congrArg some hl)
  · exact exec_notValid rfl hl hv
  · exact State.out_valid hv hg hl st
  · exact exec_rdout_valid hv hg hl st
  · exact runWord_of_encode (i := .rdout _ _) (wordO_of_fields ho hr) s
  · exact runWord_of_reserved ho (mt and_rsvdO.mp hr) s

/-- Settles O16: as O14, with the words of format Y. The layer is checked whatever VALID is. -/
theorem rdinitRespondsTheInitialState : Obligations.RdinitRespondsTheInitialState := by
  refine fun l s => ⟨fun hl => ?_, fun hl hv => ?_, fun d hl hv hg => ⟨?_, ?_⟩, fun w ho hr => ?_, fun w ho hr => ?_⟩
  · exact exec_layerRange (congrArg some hl)
  · exact exec_notValid rfl hl hv
  · exact State.init_valid hv hg hl
  · exact exec_rdinit_valid hv hg hl
  · exact runWord_of_encode (i := .rdinit _) (wordY_of_fields ho hr) s
  · exact runWord_of_reserved ho (mt and_rsvdY.mp hr) s

/-- Settles O45: with `tables_valid` = 1 no read is free, so the number of the observation does not enter. -/
theorem portReadsTheGeneratedTables : Obligations.PortReadsTheGeneratedTables := fun _ _ obs hv hg =>
  ⟨fun _ hl => State.trData_valid hv hg obs hl, fun _ hl => State.outData_valid hv hg obs hl,
    fun _ hl => State.initData_valid hv hg obs hl⟩

/-- Settles O47. -/
theorem tablesValidIsStatusBitZero : Obligations.TablesValidIsStatusBitZero := fun s =>
  ⟨statusWord s, exec_rdstat s, getLsbD_statusWord_zero s⟩

end Sys2Proof.Machine

/-! PROOFS. The statements about the consumers (45_consumers.md): one byte through the layers and back, the string as an induction
over its bytes, and the consumer port as an automaton that agrees with `generate(GD)`. -/

namespace Sys2Proof.Machine

/-! ### Automata that agree where a layer exists

A consumer reads no entry of layer 3, which the port leaves free (44_table_reads.md R175). -/

/-- Every entry of every existing layer is the same in both (20_memory.md R50). -/
structure Automaton.Agrees (a b : Automaton) : Prop where
  trans : ∀ {l}, l ≠ noLayer → ∀ st c, a.trans l st c = b.trans l st c
  out : ∀ {l}, l ≠ noLayer → ∀ st, a.out l st = b.out l st
  init : ∀ {l}, l ≠ noLayer → a.init l = b.init l

theorem Automaton.Agrees.refl (a : Automaton) : a.Agrees a := ⟨fun _ _ _ => rfl, fun _ _ => rfl, fun _ => rfl⟩

/-- The two views agree at the `n` bytes from byte `j` on. -/
def View.AgreeOn (v w : View) (j n : Nat) : Prop := ∀ k, j ≤ k → k < j + n → (v k).Agrees (w k)

section ViewAgreement

variable {v w : View} {j n : Nat}

theorem View.AgreeOn.head (h : View.AgreeOn v w j (n + 1)) : (v j).Agrees (w j) := h j (by omega) (by omega)

theorem View.AgreeOn.tail (h : View.AgreeOn v w j (n + 1)) : View.AgreeOn v w (j + 1) n :=
  fun k hj hk => h k (by omega) (by omega)

theorem View.AgreeOn.refl (v : View) (j n : Nat) : View.AgreeOn v v j n := fun k _ _ => .refl (v k)

end ViewAgreement

/-- While the tables are valid the port shows `generate(GD)`, in whatever observations it is read (44_table_reads.md R173). -/
theorem State.generate_agrees_observed {s : State} {d : Digest} (hv : s.tablesValid = true) (hg : s.gd = some d) (obs : Nat) :
    (generate specMixing d).Agrees (s.observed obs) where
  trans {l} hl st c := by
    obtain ⟨hlayer, hstate, hsym⟩ := transIndex_fields l st c
    have hread := State.trData_valid hv hg obs (a := transIndex l st c) (hlayer.symm ▸ hl)
    rw [hlayer, hstate, hsym] at hread
    exact hread.symm
  out {l} hl st := by
    obtain ⟨hlayer, hstate⟩ := outIndex_fields l st
    have hread := State.outData_valid hv hg obs (a := outIndex l st) (hlayer.symm ▸ hl)
    rw [hlayer, hstate] at hread
    exact hread.symm
  init hl := (State.initData_valid hv hg obs hl).symm

theorem generate_agreeOn_portView {s : Nat → State} {d : Digest} {n : Nat}
    (h : ∀ j, j < n → (s j).tablesValid = true ∧ (s j).gd = some d) (who : Consumer) (start : Nat) :
    View.AgreeOn (generate specMixing d).view (portView s who start) 0 n := by
  intro k _ hk
  obtain ⟨hv, hg⟩ := h k (by omega)
  exact State.generate_agrees_observed hv hg (who.obs start k)

/-! ### One byte through the layers (45_consumers.md R191 to R193) -/

section OneByte

variable {a b : Automaton} {st : LayerStates}

theorem encodeByte_layers (cb : Combine) (a : Automaton) (st : LayerStates) (v : Byte) :
    (encodeByte cb a st v).1.map Prod.fst = st.map Prod.fst := by
  induction st generalizing v with
  | nil => rfl
  | cons x rest ih => exact congrArg (x.1 :: ·) (ih _)

theorem encodeByte_congr (h : a.Agrees b) (hst : noLayer ∉ st.map Prod.fst) (cb : Combine) (v : Byte) :
    encodeByte cb a st v = encodeByte cb b st v := by
  induction st generalizing v with
  | nil => rfl
  | cons x rest ih =>
    rw [List.map_cons, List.mem_cons, not_or] at hst
    obtain ⟨hx, hrest⟩ := hst
    simp only [encodeByte, h.trans (Ne.symm hx), h.out (Ne.symm hx), ih hrest]

/-- The layers behind the first give back the byte that left it, so its undo gives back the byte that entered it, and the decoder
moves by the same byte as the encoder (45_consumers.md R195). -/
theorem decodeByte_encodeByte (h : a.Agrees b) (hst : noLayer ∉ st.map Prod.fst) (cb : Combine) (v : Byte) :
    decodeByte cb b st (encodeByte cb a st v).2 = ((encodeByte cb a st v).1, v) := by
  induction st generalizing v with
  | nil => rfl
  | cons x rest ih =>
    rw [List.map_cons, List.mem_cons, not_or] at hst
    obtain ⟨hx, hrest⟩ := hst
    simp only [encodeByte, decodeByte, ih hrest, ← h.out (Ne.symm hx), ← h.trans (Ne.symm hx), cb.undo_op]

theorem startStates_congr (h : a.Agrees b) : startStates a = startStates b := by
  rw [startStates_eq, startStates_eq, h.init (l := 0) (by decide), h.init (l := 1) (by decide), h.init (l := 2) (by decide)]

theorem noLayer_notMem_startStates (a : Automaton) : noLayer ∉ (startStates a).map Prod.fst := by
  have hlayers : (startStates a).map Prod.fst = [0, 1, 2] := rfl
  rw [hlayers]
  decide

end OneByte

/-! ### The bytes of a string one after another (45_consumers.md R192, R193) -/

theorem overString_length (f : Automaton → LayerStates → Byte → LayerStates × Byte) (v : View) (j : Nat) (st : LayerStates)
    (x : List Byte) : (overString f v j st x).length = x.length := by
  induction x generalizing j st with
  | nil => rfl
  | cons c cs ih => exact congrArg Nat.succ (ih _ _)

section OneString

variable {v w : View} {p : List Byte}

theorem overString_encodeByte_congr {j : Nat} {st : LayerStates} (h : View.AgreeOn v w j p.length)
    (hst : noLayer ∉ st.map Prod.fst) (cb : Combine) :
    overString (encodeByte cb) v j st p = overString (encodeByte cb) w j st p := by
  induction p generalizing j st with
  | nil => rfl
  | cons c cs ih =>
    rw [overString, overString, ← encodeByte_congr h.head hst cb c]
    exact congrArg _ (ih h.tail (encodeByte_layers cb (v j) st c ▸ hst))

theorem overString_decodeByte_encodeByte {j : Nat} {st : LayerStates} (h : View.AgreeOn v w j p.length)
    (hst : noLayer ∉ st.map Prod.fst) (cb : Combine) :
    overString (decodeByte cb) w j st (overString (encodeByte cb) v j st p) = p := by
  induction p generalizing j st with
  | nil => rfl
  | cons c cs ih =>
    rw [overString, overString, decodeByte_encodeByte h.head hst cb c]
    exact congrArg _ (ih h.tail (encodeByte_layers cb (v j) st c ▸ hst))

theorem encodeBytes_length (cb : Combine) (v : View) (p : List Byte) : (encodeBytes cb v p).length = p.length :=
  overString_length _ v 0 _ p

theorem decodeBytes_length (cb : Combine) (v : View) (ct : List Byte) : (decodeBytes cb v ct).length = ct.length :=
  overString_length _ v 0 _ ct

/-- The empty string reads no entry, so the start states matter only where there is a byte 0. -/
theorem encodeBytes_congr (h : View.AgreeOn v w 0 p.length) (cb : Combine) : encodeBytes cb v p = encodeBytes cb w p := by
  cases p with
  | nil => rfl
  | cons c cs =>
    rw [encodeBytes, encodeBytes, ← startStates_congr h.head]
    exact overString_encodeByte_congr h (noLayer_notMem_startStates _) cb

theorem decodeBytes_encodeBytes (h : View.AgreeOn v w 0 p.length) (cb : Combine) :
    decodeBytes cb w (encodeBytes cb v p) = p := by
  cases p with
  | nil => rfl
  | cons c cs =>
    rw [decodeBytes, encodeBytes, ← startStates_congr h.head]
    exact overString_decodeByte_encodeByte h (noLayer_notMem_startStates _) cb

end OneString

/-! ### The two answers of a consumer (45_consumers.md R194) -/

section Answers

variable {x : List Byte} (cb : Combine) (v : View)

theorem encodeView_ok (h : x.length ≤ 1024) : encodeView cb v x = .ok (encodeBytes cb v x) := if_pos h

theorem decodeView_ok (h : x.length ≤ 1024) : decodeView cb v x = .ok (decodeBytes cb v x) := if_pos h

theorem encodeView_overlong (h : 1024 < x.length) : encodeView cb v x = .error Config.consumerReject := if_neg h.not_ge

theorem decodeView_overlong (h : 1024 < x.length) : decodeView cb v x = .error Config.consumerReject := if_neg h.not_ge

end Answers

/-- The ciphertext is as long as the plaintext, so the decoder accepts it too. -/
theorem decodeView_encodeBytes {v w : View} {p : List Byte} (h : View.AgreeOn v w 0 p.length) (hp : p.length ≤ 1024)
    (cb : Combine) : decodeView cb w (encodeBytes cb v p) = .ok p := by
  rw [decodeView_ok cb w ((encodeBytes_length cb v p).trans_le hp), decodeBytes_encodeBytes h]

/-- Settles O53: one automaton agrees with itself at every byte. -/
theorem decodingUndoesEncoding : Obligations.DecodingUndoesEncoding := fun cb a p hp =>
  ⟨encodeBytes cb a.view p, encodeView_ok cb a.view hp, encodeBytes_length cb a.view p,
    decodeView_encodeBytes (.refl a.view 0 p.length) hp cb⟩

/-- Settles O54: both ports agree with `generate(d)` at every byte, so the ciphertext is that of `generate(d)`, and the decoder undoes
it. -/
theorem roundTripThroughThePort : Obligations.RoundTripThroughThePort := by
  intro s u d o o' p hs hu hp
  have henc := generate_agreeOn_portView hs .encoder o
  have hdec := generate_agreeOn_portView hu .decoder o'
  refine ⟨encodeBytes xorCombine (generate specMixing d).view p, ?_, encodeView_ok _ _ hp, encodeBytes_length _ _ p,
    decodeView_encodeBytes hdec hp xorCombine⟩
  rw [encodeBytes_congr henc]
  exact encodeView_ok _ _ hp

/-- Settles O55. -/
theorem onlyOverlongStringsAreRejected : Obligations.OnlyOverlongStringsAreRejected := by
  refine fun a x => ⟨fun h => ⟨?_, ?_⟩, fun h => ⟨⟨_, ?_, encodeBytes_length xorCombine a.view x⟩,
    ⟨_, ?_, decodeBytes_length xorCombine a.view x⟩⟩⟩
  · exact encodeView_overlong xorCombine a.view h
  · exact decodeView_overlong xorCombine a.view h
  · exact encodeView_ok xorCombine a.view h
  · exact decodeView_ok xorCombine a.view h

/-- Settles O56: the layers one after another, undone by the decoder; a byte is unchanged by xor with 0 only. -/
theorem ciphertextByteIsTheXorOfTheLayers : Obligations.CiphertextByteIsTheXorOfTheLayers := by
  refine fun a s0 s1 s2 v => ⟨rfl, decodeByte_encodeByte (.refl a) (by simp [noLayer_eq]) xorCombine v, ?_⟩
  change v ^^^ a.out 0 s0 ^^^ a.out 1 s1 ^^^ a.out 2 s2 = v ↔ _
  rw [BitVec.xor_assoc, BitVec.xor_assoc, ← BitVec.xor_assoc (a.out 0 s0)]
  exact xor_left_eq_self_iff

end Sys2Proof.Machine

/-! PROOFS. The statements about errors (60_exceptions.md): a word either ends in one of the four errors, or without an error and with
ECODE as it was unless it is a CLRERR. -/

namespace Sys2Proof.Machine

/-- The end of a word without an error: no error response is pending, and only a CLRERR has written ECODE (60_exceptions.md R204). -/
structure EndsWithoutError (w : Word) (s t : State) : Prop where
  no_error : ∀ r, t.phase = .respond r → r.err = false
  ecode : t.ecode = s.ecode ∨ (decode w = .ok .clrerr ∧ t.ecode = 0)

theorem endsWithoutError_responding {w : Word} {s u : State} (d : Word)
    (h : u.ecode = s.ecode ∨ (decode w = .ok .clrerr ∧ u.ecode = 0)) : EndsWithoutError w s (u.responding d) :=
  ⟨fun _ hr => by cases hr; rfl, h⟩

/-- Phase 1 of a GEN makes no response (42_generate.md R132). -/
theorem endsWithoutError_startGen (w : Word) (s : State) : EndsWithoutError w s s.startGen :=
  ⟨nofun, .inl rfl⟩

/-- A word ends in one of the four errors, the state otherwise as before it, or without an error (60_exceptions.md R201, R205). -/
theorem runWord_error_or_not {w : Word} {s t : State} (h : runWord w s = .next t) :
    (∃ c : Byte, (c = 1 ∨ c = 2 ∨ c = 3 ∨ c = 4) ∧ t = s.endedInError c) ∨ EndsWithoutError w s t := by
  obtain ⟨c, hc, rfl⟩ | ⟨i, hi, h⟩ := runWord_cases h
  · exact .inl ⟨c, by tauto, rfl⟩
  · obtain ⟨c, hc, rfl⟩ | ⟨d, rfl, _⟩ | ⟨m, _, rfl⟩ | ⟨m, _, rfl⟩ | ⟨rfl, rfl⟩ | ⟨_, rfl⟩ := exec_cases h
    · exact .inl ⟨c, by tauto, rfl⟩
    · exact .inr (endsWithoutError_responding d (.inl rfl))
    · exact .inr (endsWithoutError_responding 0 (.inl rfl))
    · exact .inr (endsWithoutError_responding 0 (.inl rfl))
    · exact .inr (endsWithoutError_responding 0 (.inr ⟨hi, rfl⟩))
    · exact .inr (endsWithoutError_startGen w s)

/-- Where an error is recorded, executing a word keeps the record unless the word is a CLRERR (60_exceptions.md R204). -/
theorem runWord_ecode {w : Word} {s t : State} (h : runWord w s = .next t) (hs : s.ecode ≠ 0) :
    t.ecode = s.ecode ∨ (decode w = .ok .clrerr ∧ t.ecode = 0) := by
  obtain ⟨c, _, rfl⟩ | hend := runWord_error_or_not h
  · exact .inl (if_neg hs)
  · exact hend.ecode

theorem State.advanceGen_ecode (s : State) (k : BitVec 15) (n : Nat) : (s.advanceGen k n).ecode = s.ecode := by
  obtain ⟨_, e⟩ | ⟨_, e⟩ := s.advanceGen_cases k n
  · rw [e]
  · rw [e, State.finishGen_ecode]

/-- Settles O31: a word that does not end in one of the four errors has no error response. -/
theorem errorsArePrecise : Obligations.ErrorsArePrecise := by
  intro w s t r h hp herr
  obtain ⟨c, hc, rfl⟩ | hend := runWord_error_or_not h
  · cases hp
    exact ⟨c, hc, rfl, rfl⟩
  · exact absurd herr (by simp [hend.no_error r hp])

/-- Settles O30: besides reset, only executing a word can write ECODE. -/
theorem recordedErrorIsSticky : Obligations.RecordedErrorIsSticky := by
  intro s t h hs hne
  obtain ⟨hr, rfl⟩ | ⟨_, ⟨w, b, hx, hb, hrun⟩ | ⟨w, _, _, _, _, rfl⟩ | ⟨k, _, _, rfl⟩ | ⟨r, _, _, _, rfl⟩ | ⟨_, _, rfl⟩⟩ :=
    step_cases h
  · exact ⟨rfl, .inl hr⟩
  · obtain ⟨_, _, hbe, _⟩ := hb.registers
    obtain hkept | ⟨hclr, hzero⟩ := runWord_ecode hrun (hbe ▸ hs)
    · exact absurd (hkept.trans hbe) hne
    · exact ⟨hzero, .inr ⟨w, hx, hclr⟩⟩
  · exact absurd rfl hne
  · exact absurd (s.advanceTick.advanceGen_ecode k _) hne
  · exact absurd rfl hne
  · exact absurd rfl hne

/-- Settles O35. -/
theorem noStepEverStops : Obligations.NoStepEverStops := step_next

end Sys2Proof.Machine

/-! PROOFS. The statements about reset and hazards (70_reset_and_hazards.md): reset from any phase, the boot sequence of two loads
and a GEN at the command level, and a response that is never taken. -/

namespace Sys2Proof.Machine

/-! ### Reset (R230) -/

theorem State.cmdReady_of_rst {s : State} (hr : s.tick.rst = true) : s.cmdReady = false := by
  simp [State.cmdReady, hr]

theorem State.rspOut_of_rst {s : State} (hr : s.tick.rst = true) : s.rspOut = none := by
  unfold State.rspOut
  split <;> simp [hr]

/-- The lists and the draws that reset keeps hold no entry, so the entries are those of the reset state. -/
theorem State.resetCore_entry (s : State) (e : Entry) : s.resetCore.entry e = none := by
  obtain ⟨_, _, _, _, hentries, _⟩ := resetStateIsAsListed
  exact (State.entry_congr (s := State.reset) rfl rfl rfl rfl e).trans (hentries e)

/-- Settles O39: whatever the phase, the step is `State.resetCore`. -/
theorem resetAbandonsEverything : Obligations.ResetAbandonsEverything := by
  intro s hr
  have hrsp : s.rspValid = false := by rw [State.rspValid, State.rspOut_of_rst hr, Option.isSome_none]
  exact ⟨State.cmdReady_of_rst hr, hrsp, _, step_reset hr, rfl, rfl, rfl, rfl, rfl, rfl, rfl, State.resetCore_entry _, rfl, rfl⟩

/-! ### The boot sequence at the command level (R232, R235) -/

theorem commands_cons {w : Word} {s t : State} (h : command w s = .next t) (ws : List Word) :
    commands (w :: ws) s = commands ws t := by
  rw [commands, h]

/-- The state after the command word `w` has loaded `d` into DIGEST and its response has been taken. -/
def State.afterLoad (s : State) (w : Word) (d : Digest) : State := ((s.begin w).loadDigest d).transfer ⟨false, 0⟩

section AfterLoad

variable (s : State) (w : Word) (d : Digest)

@[simp] theorem State.afterLoad_digest : (s.afterLoad w d).digest = d := rfl
@[simp] theorem State.afterLoad_ecode : (s.afterLoad w d).ecode = s.ecode := rfl
@[simp] theorem State.afterLoad_taken : (s.afterLoad w d).taken = s.taken ++ [⟨false, 0⟩] := rfl

end AfterLoad

theorem command_ldlo (lo : Half) (s : State) : command (encode (.ldlo lo)) s =
    .next (s.afterLoad (encode (.ldlo lo)) (withLowHalf s.digest lo)) := by
  rw [command, runWord_of_encode rfl, exec_ldlo]
  rfl

theorem command_ldhi (hi : Half) (s : State) : command (encode (.ldhi hi)) s =
    .next (s.afterLoad (encode (.ldhi hi)) (withHighHalf s.digest hi)) := by
  rw [command, runWord_of_encode rfl, exec_ldhi]
  rfl

/-- A stream's last GEN leaves the tables of the DIGEST it finds, and adds its response to those taken (42_generate.md R130). -/
theorem commands_gen (s : State) : ∃ t, commands [encode .gen] s = .next t ∧ t.valid = true ∧ t.gd = some s.digest ∧
    t.Holds s.digest ∧ t.ecode = s.ecode ∧ t.taken = s.taken ++ [⟨false, 0⟩] :=
  ⟨_, commands_cons (command_gen s) [], rfl, rfl, State.holds_of_valid rfl rfl, rfl, rfl⟩

/-- Settles O44: GEN reads the DIGEST that the loads before it left. -/
theorem bootSequenceFillsTheTables : Obligations.BootSequenceFillsTheTables := by
  intro lo hi s
  constructor
  · rw [commands_cons (command_ldlo lo s), commands_cons (command_ldhi hi _)]
    obtain ⟨t, hrun, hvalid, hgd, hholds, hecode, htaken⟩ := commands_gen
      ((s.afterLoad (encode (.ldlo lo)) (withLowHalf s.digest lo)).afterLoad (encode (.ldhi hi))
        (withHighHalf (withLowHalf s.digest lo) hi))
    rw [State.afterLoad_digest, withHighHalf_withLowHalf_eq_append] at hgd hholds
    exact ⟨t, hrun, hvalid, hgd, hholds, hecode, by simpa using htaken⟩
  · rw [commands_cons (command_ldlo lo s)]
    obtain ⟨t, hrun, _, _, hholds, _⟩ := commands_gen (s.afterLoad (encode (.ldlo lo)) (withLowHalf s.digest lo))
    exact ⟨t, hrun, hholds⟩

/-! ### A response that is never taken (R239) -/

theorem State.NeverTaken.tick {s : State} (h : s.NeverTaken) : s.tick.rspReady = false ∧ s.tick.rst = false := by
  obtain ⟨hsched, hrest⟩ := h
  unfold State.tick
  cases hc : s.sched with
  | nil => exact hrest
  | cons t ts => exact hsched t (by simp [hc])

theorem State.NeverTaken.advanceTick {s : State} (h : s.NeverTaken) : s.advanceTick.NeverTaken := by
  obtain ⟨hsched, hrest⟩ := h
  exact ⟨fun t ht => hsched t (List.mem_of_mem_tail ht), hrest⟩

/-- AG stays as it is for as long as the master refuses the response: each step holds it, and the refusal goes on. -/
theorem run_held {s : State} {r : Response} (hp : s.phase = .respond r) (hnever : s.NeverTaken) (n : Nat) :
    ∃ t, Host.Core.run Sys2Proof.core n s = .next t ∧ t.visible = s.visible ∧ t.NeverTaken := by
  induction n generalizing s with
  | zero => exact ⟨s, run_zero s, rfl, hnever⟩
  | succ n ih =>
    obtain ⟨hy, hr⟩ := hnever.tick
    obtain ⟨t, hrun, hvis, hnever'⟩ := ih (s := s.advanceTick) hp hnever.advanceTick
    exact ⟨t, (run_succ (step_respond_held hr hp hy) n).trans hrun, hvis, hnever'⟩

/-- Settles O57: a word is taken only in IDLE; and what is visible after a run of refusals still offers the response. -/
theorem untakenResponseStallsForGood : Obligations.UntakenResponseStallsForGood := by
  constructor
  · intro s t r hp h
    obtain ⟨hready, hkept | ⟨hs, _⟩⟩ := acceptsOnlyWhenReady s t h
    · exact hkept
    · obtain ⟨hidle, _⟩ := hready.mp hs
      cases hp.symm.trans hidle
  · intro s r n hp hnever
    obtain ⟨t, hrun, hvis, hnever'⟩ := run_held hp hnever n
    have hpt : t.phase = .respond r := (congrArg Visible.phase hvis).trans hp
    obtain ⟨_, hr⟩ := hnever'.tick
    obtain ⟨hrsp, _⟩ := responseIsHeldUntilTaken t r hpt hr
    exact ⟨t, hrun, hvis, by simp [State.cmdReady, hpt], hrsp⟩

end Sys2Proof.Machine
